-- ==== Sys2Proof/Word.lean ====
section
/-! DEFINITION. The value types of TGAHDR: bytes, 16-bit words, the 18-byte frame, and the header
record of the source's data model (spec/10_state.md R29). -/

namespace Sys2Proof

/-- An 8-bit unsigned field, or one byte of the frame (R10). -/
abbrev Byte := BitVec 8

/-- A 16-bit unsigned field (R10). -/
abbrev Word := BitVec 16

/-- The frame: the 18 bytes `B[0]` to `B[17]` (R24, R35). -/
abbrev Frame := Vector Byte 18

/-- The sub-record ColorMapSpec (R29). -/
structure ColorMapSpec where
  firstEntryIndex : Word
  mapLength : Word
  mapEntrySize : Byte
deriving DecidableEq, Repr

/-- The sub-record ImageSpec (R29). -/
structure ImageSpec where
  xOrigin : Word
  yOrigin : Word
  width : Word
  height : Word
  pixelDepth : Byte
  descriptorByte : Byte
deriving DecidableEq, Repr

/-- The decoded record Header: "exactly these five fields" (R29). -/
structure Header where
  idLenField : Byte
  colorMapType : Byte
  imageTypeCode : Byte
  colorMap : ColorMapSpec
  image : ImageSpec
deriving DecidableEq, Repr

/-- The ports of R29 and R30 of a transaction that succeeded: the output record of R35. -/
structure Decoded where
  header : Header
  cmapPresentSummary : Bool
  cmapPresentVerbose : Bool
  typeIdx : BitVec 3
  typeKnown : Bool
  descAlpha : BitVec 4
  descH : Bool
  descV : Bool
deriving DecidableEq, Repr

/-- The input record of R35. -/
structure Input where
  frame : Frame
  len : Nat
  corrected : Bool
deriving DecidableEq, Repr

/-- The block's one error (R200; its other names are settled in 90_conflicts.md C2). -/
inductive InsufficientData where
  | insufficientData
deriving DecidableEq, Repr

end Sys2Proof
end

