-- ==== Sys2Proof/Config.lean ====
section
/-! DEFINITION. What an implementation fixes and the spec leaves open (spec/00_scope.md R7,
spec/92_eei_decisions.md). An OPEN parameter is an opaque constant: no proof can see its value. -/

namespace Sys2Proof

/-- Bytes in the frame; the length check compares against this constant (R7, R101). -/
def Config.frameBytes : Nat := 18

/-- `TYPE_UNKNOWN_IDX`: the class of every code outside the table (R7, D9). -/
def Config.typeUnknownIdx : BitVec 3 := 7

/-- `CFG_CORRECTED`: the strap of an instance not tied otherwise, 0 (R7, R26, R34). -/
def Config.cfgCorrected : Bool := false

/-- `VERBOSE_LAYOUT` (R7, R184 to R189, D19): the texts of the verbose block that the source does not
give. A field ending in `Sep` is what stands between a label and its value.
DESIGN CHOICE (log 18), safe: which texts can vary is read from R185 to R189. -/
structure VerboseLayout where
  /-- Label and separator before the id length (R185). -/
  idLenBefore : String
  /-- Text after the id length (R185). -/
  idLenAfter : String
  /-- Label before the image-type name (R187). -/
  typeBefore : String
  /-- Text after the image-type name (R187). -/
  typeAfter : String
  /-- After the label "First Entry" (R188). -/
  firstEntrySep : String
  /-- After the label "Map Length" (R188). -/
  mapLengthSep : String
  /-- After the label "Entry Size" (R188). -/
  entrySizeSep : String
  /-- What each image-specification line starts with: the source does not say whether it is a tab (R189). -/
  imageIndent : String
  /-- After the label "X Origin" (R189). -/
  xOriginSep : String
  /-- After the label "Y Origin" (R189). -/
  yOriginSep : String
  /-- After the label "Width" (R189). -/
  widthSep : String
  /-- After the label "Height" (R189). -/
  heightSep : String
  /-- After the label "Pixel Depth" (R189). -/
  pixelDepthSep : String
  /-- The unit suffix of "Pixel Depth", if any (R189). -/
  pixelDepthSuffix : String
  /-- After the label "Descriptor" (R189). -/
  descriptorSep : String
deriving DecidableEq, Repr, Inhabited

/-- `LINE_TERMINATOR` (R7, R184): the line separator, and whether the text ends with one. -/
structure LineTerminator where
  separator : String
  atEnd : Bool
deriving DecidableEq, Repr, Inhabited

/-- `VERBOSE_LAYOUT`, OPEN (D19). -/
opaque Config.verboseLayout : VerboseLayout

/-- `LINE_TERMINATOR`, OPEN (D19). -/
opaque Config.lineTerminator : LineTerminator

/-- `SHORT_FILE_MSG`, OPEN (R207, D25). -/
opaque Config.shortFileMsg : String

/-- `READ_FAIL_MSG`, OPEN (R207, D25). -/
opaque Config.readFailMsg : String

end Sys2Proof
end

