-- ==== Sys2Proof/Syntax.lean ====
section
/-! DEFINITION. The rows of spec/opcode_table.json, one constructor each, in the table's order.

TGAHDR has no instruction set (R2): a row is an operation of the block (R76). Its operands are the
input ports, which have fixed names, so a row carries an operand only where its rule gives it one
(LE16's offset, R102). DECODE performs all rows at once (R76, R100). -/

namespace Sys2Proof

/-- The block's operations (R76). -/
inductive Instr where
  /-- DECODE: the block's one transaction (R100). -/
  | decode
  /-- LENCHK: the length check (R101). -/
  | lenchk
  /-- LE16: 16-bit assembly from the two bytes at offset `o` (R102). -/
  | le16 (o : Nat)
  /-- EXT_IDLEN: the `idLenField` output (R103). -/
  | extIdlen
  /-- EXT_CMTYPE: the `colorMapType` output (R104). -/
  | extCmtype
  /-- EXT_IMGTYPE: the `imageTypeCode` output (R105). -/
  | extImgtype
  /-- EXT_CMFIRST: the `colorMap.firstEntryIndex` output (R106). -/
  | extCmfirst
  /-- EXT_CMLEN: the `colorMap.mapLength` output (R107). -/
  | extCmlen
  /-- EXT_CMESIZE: the `colorMap.mapEntrySize` output (R108). -/
  | extCmesize
  /-- EXT_XORG: the `image.xOrigin` output (R109). -/
  | extXorg
  /-- EXT_YORG: the `image.yOrigin` output (R110). -/
  | extYorg
  /-- EXT_WIDTH: the `image.width` output (R111). -/
  | extWidth
  /-- EXT_HEIGHT: the `image.height` output (R112). -/
  | extHeight
  /-- EXT_PIXDEPTH: the `image.pixelDepth` output (R113). -/
  | extPixdepth
  /-- EXT_DESC: the `image.descriptorByte` output (R114). -/
  | extDesc
  /-- CMAP_SUMMARY: the `cmap_present_summary` output (R130). -/
  | cmapSummary
  /-- CMAP_VERBOSE: the `cmap_present_verbose` output (R131). -/
  | cmapVerbose
  /-- IT_NONE: image-type code 0 (R141). -/
  | itNone
  /-- IT_CMAP: image-type code 1 (R142). -/
  | itCmap
  /-- IT_TRUE: image-type code 2 (R143). -/
  | itTrue
  /-- IT_GRAY: image-type code 3 (R144). -/
  | itGray
  /-- IT_RLE_CMAP: image-type code 4 (R145). -/
  | itRleCmap
  /-- IT_RLE_TRUE: image-type code 5 (R146). -/
  | itRleTrue
  /-- IT_RLE_GRAY: image-type code 6 (R147). -/
  | itRleGray
  /-- IT_UNKNOWN_7: image-type code 7 (R148). -/
  | itUnknown7
  /-- IT_UNKNOWN_8_15: image-type codes 8 to 15 (R148). -/
  | itUnknown8To15
  /-- IT_UNKNOWN_16_31: image-type codes 16 to 31 (R148). -/
  | itUnknown16To31
  /-- IT_UNKNOWN_32_63: image-type codes 32 to 63 (R148). -/
  | itUnknown32To63
  /-- IT_UNKNOWN_64_127: image-type codes 64 to 127 (R148). -/
  | itUnknown64To127
  /-- IT_UNKNOWN_128_255: image-type codes 128 to 255 (R148). -/
  | itUnknown128To255
  /-- TYPE_KNOWN: the `type_known` output (R150). -/
  | typeKnown
  /-- TYPE_NAME: the name table (R149). -/
  | typeName
  /-- DESC_ALPHA: the `desc_alpha` output (R160). -/
  | descAlpha
  /-- DESC_H_COMPAT: the horizontal flag with the source's defect (R161). -/
  | descHCompat
  /-- DESC_H_CORR: the horizontal flag, corrected (R162). -/
  | descHCorr
  /-- DESC_V_COMPAT: the vertical flag with the source's defect (R163). -/
  | descVCompat
  /-- DESC_V_CORR: the vertical flag, corrected (R164). -/
  | descVCorr
  /-- DESC_SEL: the `desc_h` and `desc_v` outputs (R165). -/
  | descSel
deriving DecidableEq, Repr

end Sys2Proof
end

