-- ==== Sys2Proof/WellFormed.lean ====
section
/-! DEFINITION. Well-formed terms: the one operand a row carries is LE16's offset (R102). -/

namespace Sys2Proof

/-- The offsets of the low bytes of the six 16-bit fields (R71, R102). -/
def wordOffsets : List Nat := [3, 5, 8, 10, 12, 14]

/-- LE16 is given only for the low byte of a 16-bit field (R102; R52: no 16-bit read spans two
fields). Every other row carries no operand. -/
def Instr.wellFormed : Instr → Bool
  | .decode => true
  | .lenchk => true
  | .le16 o => wordOffsets.contains o
  | .extIdlen => true
  | .extCmtype => true
  | .extImgtype => true
  | .extCmfirst => true
  | .extCmlen => true
  | .extCmesize => true
  | .extXorg => true
  | .extYorg => true
  | .extWidth => true
  | .extHeight => true
  | .extPixdepth => true
  | .extDesc => true
  | .cmapSummary => true
  | .cmapVerbose => true
  | .itNone => true
  | .itCmap => true
  | .itTrue => true
  | .itGray => true
  | .itRleCmap => true
  | .itRleTrue => true
  | .itRleGray => true
  | .itUnknown7 => true
  | .itUnknown8To15 => true
  | .itUnknown16To31 => true
  | .itUnknown32To63 => true
  | .itUnknown64To127 => true
  | .itUnknown128To255 => true
  | .typeKnown => true
  | .typeName => true
  | .descAlpha => true
  | .descHCompat => true
  | .descHCorr => true
  | .descVCompat => true
  | .descVCorr => true
  | .descSel => true

end Sys2Proof
end

