-- ==== Sys2Proof/Decode.lean ====
section
/-! DEFINITION. The encodings of spec/30_encoding.md: the opcode table's patterns, the decoder and the
encoder over them, and the frame layout FRAME144 with its packing (R71, R117).

No opcode selects a row (R76): the rows of a format all read the same bits, and several match one
word. `matchingRows` gives all of them and `decodeWord` the first, which for a frame is DECODE, the transaction
that performs every other row. Only the TYPE8 patterns of R73 select by value, and there the match is
unique. Three rows have two formats: the opcode table gives EXT_CMTYPE, EXT_IMGTYPE and EXT_DESC the whole
frame, and their rules the format of their byte (R104, R105, R114). DESIGN CHOICE (log 10), safe. -/

namespace Sys2Proof

/-! ## Bytes and buses -/

/-- LE16 on two bytes: `B[o] | (B[o+1] << 8)`, 16 bits, never sign-extended (R9, R102). -/
def le16 (lo hi : Byte) : Word := lo.setWidth 16 ||| (hi.setWidth 16 <<< 8)

/-- Byte `k` of the bus `hdr_in` is on `hdr_in[8k+7:8k]` (R24). -/
def laneByte (w : BitVec 144) (k : Nat) : Byte := w.extractLsb' (8 * k) 8

/-- The `n` bytes of a word, the least significant first: lane order (R24, D3). -/
def wordBytes (n w : Nat) : List Byte := (List.range n).map fun k => BitVec.ofNat 8 (w >>> (8 * k))

/-- The number that bytes in lane order stand for. -/
def bytesWord : List Byte → Nat
  | [] => 0
  | b :: bs => b.toNat + 256 * bytesWord bs

/-! ## Formats and the opcode table's patterns -/

/-- The formats of R70, and LEN for LENCHK, which has no encoding (R101). -/
inductive Format where
  | len
  | frame144
  | cmt8
  | type8
  | desc8
  | tidx3
deriving DecidableEq, Repr

/-- The width of a format in bits (R70). -/
def Format.bits : Format → Nat
  | .len => 0
  | .frame144 => 144
  | .cmt8 => 8
  | .type8 => 8
  | .desc8 => 8
  | .tidx3 => 3

/-- The width of a format in whole bytes. -/
def Format.bytes (f : Format) : Nat := (f.bits + 7) / 8

/-- A row's pattern: its format, and the match and mask over the format's bits. -/
structure Pattern where
  format : Format
  value : Nat
  mask : Nat
deriving DecidableEq, Repr

/-- The match and mask of each row (spec/opcode_table.json; R73 for TYPE8). -/
def Instr.pattern : Instr → Pattern
  | .decode => ⟨.frame144, 0x0, 0x0⟩
  | .lenchk => ⟨.len, 0x0, 0x0⟩
  | .le16 _ => ⟨.frame144, 0x0, 0x0⟩
  | .extIdlen => ⟨.frame144, 0x0, 0x0⟩
  | .extCmtype => ⟨.frame144, 0x0, 0x0⟩
  | .extImgtype => ⟨.frame144, 0x0, 0x0⟩
  | .extCmfirst => ⟨.frame144, 0x0, 0x0⟩
  | .extCmlen => ⟨.frame144, 0x0, 0x0⟩
  | .extCmesize => ⟨.frame144, 0x0, 0x0⟩
  | .extXorg => ⟨.frame144, 0x0, 0x0⟩
  | .extYorg => ⟨.frame144, 0x0, 0x0⟩
  | .extWidth => ⟨.frame144, 0x0, 0x0⟩
  | .extHeight => ⟨.frame144, 0x0, 0x0⟩
  | .extPixdepth => ⟨.frame144, 0x0, 0x0⟩
  | .extDesc => ⟨.frame144, 0x0, 0x0⟩
  | .cmapSummary => ⟨.cmt8, 0x01, 0xFF⟩
  | .cmapVerbose => ⟨.cmt8, 0x00, 0xFF⟩
  | .itNone => ⟨.type8, 0x00, 0xFF⟩
  | .itCmap => ⟨.type8, 0x01, 0xFF⟩
  | .itTrue => ⟨.type8, 0x02, 0xFF⟩
  | .itGray => ⟨.type8, 0x03, 0xFF⟩
  | .itRleCmap => ⟨.type8, 0x04, 0xFF⟩
  | .itRleTrue => ⟨.type8, 0x05, 0xFF⟩
  | .itRleGray => ⟨.type8, 0x06, 0xFF⟩
  | .itUnknown7 => ⟨.type8, 0x07, 0xFF⟩
  | .itUnknown8To15 => ⟨.type8, 0x08, 0xF8⟩
  | .itUnknown16To31 => ⟨.type8, 0x10, 0xF0⟩
  | .itUnknown32To63 => ⟨.type8, 0x20, 0xE0⟩
  | .itUnknown64To127 => ⟨.type8, 0x40, 0xC0⟩
  | .itUnknown128To255 => ⟨.type8, 0x80, 0x80⟩
  | .typeKnown => ⟨.tidx3, 0x7, 0x7⟩
  | .typeName => ⟨.tidx3, 0x0, 0x0⟩
  | .descAlpha => ⟨.desc8, 0x00, 0x00⟩
  | .descHCompat => ⟨.desc8, 0x00, 0x00⟩
  | .descHCorr => ⟨.desc8, 0x10, 0x10⟩
  | .descVCompat => ⟨.desc8, 0x00, 0x00⟩
  | .descVCorr => ⟨.desc8, 0x20, 0x20⟩
  | .descSel => ⟨.desc8, 0x00, 0x00⟩

/-- The format that a row's rule gives it beside the table's: EXT_CMTYPE reads CMT8, EXT_IMGTYPE TYPE8 and
EXT_DESC DESC8, each at every value ("passed through unchanged", R104; R105, R114). -/
def Instr.fieldPattern : Instr → Option Pattern
  | .extCmtype => some ⟨.cmt8, 0x00, 0x00⟩
  | .extImgtype => some ⟨.type8, 0x00, 0x00⟩
  | .extDesc => some ⟨.desc8, 0x00, 0x00⟩
  | .decode | .lenchk | .le16 _ | .extIdlen | .extCmfirst | .extCmlen | .extCmesize | .extXorg
  | .extYorg | .extWidth | .extHeight | .extPixdepth | .cmapSummary | .cmapVerbose | .itNone | .itCmap
  | .itTrue | .itGray | .itRleCmap | .itRleTrue | .itRleGray | .itUnknown7 | .itUnknown8To15
  | .itUnknown16To31 | .itUnknown32To63 | .itUnknown64To127 | .itUnknown128To255 | .typeKnown
  | .typeName | .descAlpha | .descHCompat | .descHCorr | .descVCompat | .descVCorr | .descSel => none

/-- Every pattern of a row: the opcode table's, then its rule's. -/
def Instr.patterns (i : Instr) : List Pattern := i.pattern :: i.fieldPattern.toList

/-- Every row of the table in the table's order, LE16 at each of its offsets. -/
def tableRows : List Instr :=
  [.decode, .lenchk, .le16 3, .le16 5, .le16 8, .le16 10, .le16 12, .le16 14,
   .extIdlen, .extCmtype, .extImgtype, .extCmfirst, .extCmlen, .extCmesize, .extXorg, .extYorg,
   .extWidth, .extHeight, .extPixdepth, .extDesc] ++
  [.cmapSummary, .cmapVerbose,
   .itNone, .itCmap, .itTrue, .itGray, .itRleCmap, .itRleTrue, .itRleGray, .itUnknown7,
   .itUnknown8To15, .itUnknown16To31, .itUnknown32To63, .itUnknown64To127, .itUnknown128To255] ++
  [.typeKnown, .typeName,
   .descAlpha, .descHCompat, .descHCorr, .descVCompat, .descVCorr, .descSel]

/-- The pattern matches the word of its format. -/
def Pattern.matchesWord (p : Pattern) (w : Nat) : Bool := w &&& p.mask == p.value

/-- The pattern is of format `f` and matches `w`. -/
def Pattern.selects (p : Pattern) (f : Format) (w : Nat) : Bool := p.format == f && p.matchesWord w

/-- The rows whose opcode-table pattern is of format `f` and matches `w`; for TYPE8 these are R73's. -/
def tableMatches (f : Format) (w : Nat) : List Instr := tableRows.filter fun i => i.pattern.selects f w

/-- All the rows of format `f` that match `w`: those the opcode table lists under `f`, then those whose
rule names `f`. -/
def matchingRows (f : Format) (w : Nat) : List Instr :=
  tableMatches f w ++ tableRows.filter fun i => i.fieldPattern.any fun p => p.selects f w

/-! ## Decoder -/

/-- Why a buffer is not decoded. -/
inductive Reject where
  /-- Fewer bytes than the format has; for a frame this is InsufficientData (R101). -/
  | tooShort
  /-- The bits above the format's width are not 0. Within it some row matches every word (R77). -/
  | noRow
deriving DecidableEq, Repr

/-- The row a word of format `f` decodes to: the first match. -/
def decodeWord (f : Format) (w : Nat) : Option Instr :=
  if w < 2 ^ f.bits then (matchingRows f w).head? else none

/-- Decode a buffer that starts with a word of format `f`: the row and the bytes left over. -/
def decodeBytes (f : Format) (buf : List Byte) : Except Reject (Instr × List Byte) :=
  if buf.length < f.bytes then .error .tooShort
  else
    match decodeWord f (bytesWord (buf.take f.bytes)) with
    | some i => .ok (i, buf.drop f.bytes)
    | none => .error .noRow

/-- The format the host's word of `nbits` bits is read in. Three formats have 8 bits; TYPE8 is the one
whose value selects a row (R76). DESIGN CHOICE (log 10). -/
def formatOfBits : Nat → Option Format
  | 0 => some .len
  | 3 => some .tidx3
  | 8 => some .type8
  | 144 => some .frame144
  | _ => none

/-- The row the decoder reads from an instruction whose bits are `w`. -/
def decodeTableWord (nbits w : Nat) : Option Instr :=
  match formatOfBits nbits with
  | none => none
  | some f =>
    if w < 2 ^ f.bits then
      match decodeBytes f (wordBytes f.bytes w) with
      | .ok (i, _) => some i
      | .error _ => none
    else none

/-! ## Encoder -/

/-- A word of a pattern: its match bits, and the bits of `free` wherever its mask leaves a bit open. -/
def Pattern.word (p : Pattern) (free : Nat) : Nat :=
  p.value ||| (free % 2 ^ p.format.bits &&& (p.mask ^^^ (2 ^ p.format.bits - 1)))

/-- The bytes of a pattern's word, in lane order. -/
def Pattern.encode (p : Pattern) (free : Nat) : List Byte := wordBytes p.format.bytes (p.word free)

/-- The bytes of a row's word in the format the opcode table gives it. -/
def encode (i : Instr) (free : Nat) : List Byte := i.pattern.encode free

/-! ## The frame: FRAME144 (R71) -/

/-- The field values of a frame (R71): what the header record of R29 holds for these 18 bytes. -/
def unpack (f : Frame) : Header where
  idLenField := f[0]
  colorMapType := f[1]
  imageTypeCode := f[2]
  colorMap :=
    { firstEntryIndex := le16 f[3] f[4]
      mapLength := le16 f[5] f[6]
      mapEntrySize := f[7] }
  image :=
    { xOrigin := le16 f[8] f[9]
      yOrigin := le16 f[10] f[11]
      width := le16 f[12] f[13]
      height := le16 f[14] f[15]
      pixelDepth := f[16]
      descriptorByte := f[17] }

/-- The low byte of a field, `v[7:0]` (R117). -/
def loByte (v : Word) : Byte := v.extractLsb' 0 8

/-- The high byte of a field, `v[15:8]` (R117). -/
def hiByte (v : Word) : Byte := v.extractLsb' 8 8

/-- `pack(h)`: the frame built from chosen field values (R117). -/
def pack (h : Header) : Frame :=
  #v[h.idLenField, h.colorMapType, h.imageTypeCode,
     loByte h.colorMap.firstEntryIndex, hiByte h.colorMap.firstEntryIndex,
     loByte h.colorMap.mapLength, hiByte h.colorMap.mapLength, h.colorMap.mapEntrySize,
     loByte h.image.xOrigin, hiByte h.image.xOrigin, loByte h.image.yOrigin, hiByte h.image.yOrigin,
     loByte h.image.width, hiByte h.image.width, loByte h.image.height, hiByte h.image.height,
     h.image.pixelDepth, h.image.descriptorByte]

end Sys2Proof
end

