-- ==== Sys2Proof/Machine/State.lean ====
section
/-! DEFINITION. The state: the ports and internal signals of the current transaction, and the host's
side. The block itself stores nothing (R20); `Inputs` and `Signals` are what is on its wires. -/

namespace Sys2Proof.Machine

open Sys2Proof

/-- The frame's address space (R33, R56): the driven lanes of `hdr_in` as (offset, byte) pairs, offsets
strictly rising. An unlisted lane carries no defined value (R25, I12). -/
abbrev Memory := List Host.Cell

/-- The input ports (R24, R25, R26). -/
structure Inputs where
  /-- `hdr_in[143:0]` (R24): the lanes that carry a value; `none` until the host drives the port at all
  (R221, R34). -/
  hdrIn : Option Memory
  /-- `len_in`, a natural number (R25, D4); `none` until the host drives it (R221, R34). -/
  lenIn : Option Nat
  /-- `cfg_corrected`: false is compatibility mode, true corrected mode (R26). -/
  cfgCorrected : Bool
deriving DecidableEq, Repr

/-- The output ports (R28 to R30) and the internal signals the spec names. `none` is "carries no
defined value" (R31, R221): nothing is claimed about the bits on the wire. -/
structure Signals where
  /-- `err` (R28). -/
  err : Option Bool := none
  /-- `hdr_valid` (R28). -/
  hdrValid : Option Bool := none
  /-- R103. -/
  idLenField : Option Byte := none
  /-- R104. -/
  colorMapType : Option Byte := none
  /-- R105. -/
  imageTypeCode : Option Byte := none
  /-- `colorMap.firstEntryIndex` (R106). -/
  firstEntryIndex : Option Word := none
  /-- `colorMap.mapLength` (R107). -/
  mapLength : Option Word := none
  /-- `colorMap.mapEntrySize` (R108). -/
  mapEntrySize : Option Byte := none
  /-- `image.xOrigin` (R109). -/
  xOrigin : Option Word := none
  /-- `image.yOrigin` (R110). -/
  yOrigin : Option Word := none
  /-- `image.width` (R111). -/
  width : Option Word := none
  /-- `image.height` (R112). -/
  height : Option Word := none
  /-- `image.pixelDepth` (R113). -/
  pixelDepth : Option Byte := none
  /-- `image.descriptorByte` (R114). -/
  descriptorByte : Option Byte := none
  /-- `cmap_present_summary` (R130). -/
  cmapPresentSummary : Option Bool := none
  /-- `cmap_present_verbose` (R131). -/
  cmapPresentVerbose : Option Bool := none
  /-- `type_idx` (R140). -/
  typeIdx : Option (BitVec 3) := none
  /-- `type_known` (R150). -/
  typeKnown : Option Bool := none
  /-- `desc_alpha` (R160). -/
  descAlpha : Option (BitVec 4) := none
  /-- `desc_h` (R165). -/
  descH : Option Bool := none
  /-- `desc_v` (R165). -/
  descV : Option Bool := none
  /-- Internal: `LE16(3)` (R102). -/
  le16At3 : Option Word := none
  /-- Internal: `LE16(5)` (R102). -/
  le16At5 : Option Word := none
  /-- Internal: `LE16(8)` (R102). -/
  le16At8 : Option Word := none
  /-- Internal: `LE16(10)` (R102). -/
  le16At10 : Option Word := none
  /-- Internal: `LE16(12)` (R102). -/
  le16At12 : Option Word := none
  /-- Internal: `LE16(14)` (R102). -/
  le16At14 : Option Word := none
  /-- Internal: `imageTypeName`, the name table read (R149). -/
  imageTypeName : Option String := none
  /-- Internal: `h_compat` (R161). -/
  hCompat : Option Bool := none
  /-- Internal: `h_corr` (R162). -/
  hCorr : Option Bool := none
  /-- Internal: `v_compat` (R163). -/
  vCompat : Option Bool := none
  /-- Internal: `v_corr` (R164). -/
  vCorr : Option Bool := none
deriving DecidableEq, Repr

/-- No signal carries a defined value (R221: before the inputs are driven). -/
def Signals.undriven : Signals := {}

/-- What a DECODE line presents (R79): the mode, the buffer's length, and the bytes listed. -/
structure Presented where
  bytes : List Byte
  len : Nat
  corrected : Bool
deriving DecidableEq, Repr

/-- One line of the host's program (R79). -/
inductive HostLine where
  /-- `DECODE [mode=] len= bytes=`: one transaction (R79, R224). -/
  | decode (p : Presented)
  /-- `FORMAT verbose=` (R79, R180). -/
  | format (verbose : Bool)
  /-- A DECODE during whose sampling the host changes the inputs from `p` to `q` (R58, R225). -/
  | decodeMoving (p q : Presented)
  /-- The host's flow for one file: size check, read, DECODE, FORMAT (R207, R224). -/
  | file (contents : List Byte) (corrected verbose : Bool)
  /-- The model's own line: evaluate one row alone on the inputs now presented.
  DESIGN CHOICE (log 9), safe: it drives what DECODE drives, and less. The host does not sample it
  (log 29). -/
  | row (i : Instr)
deriving DecidableEq, Repr

/-- What the host records or prints (R205, R207). -/
inductive HostEvent where
  /-- `err = 0`: the host sampled every output (R224 step 5). -/
  | header (d : Decoded)
  /-- `err` carries no defined value, because a lane the host owed was not driven, so there is nothing to
  sample. DESIGN CHOICE (log 22), safe. -/
  | undefinedHeader
  /-- `err = 1`: the host reports `READ_FAIL_MSG` (R207). -/
  | readFailure
  /-- The file was smaller than 18 bytes: the host prints `SHORT_FILE_MSG` (R207). -/
  | shortFile
  /-- The reference formatter's text, printed to standard output (R192, R207). -/
  | text (t : String)
deriving DecidableEq, Repr

/-- Reasons to stop with a fault. -/
inductive Fault where
  /-- Raised by LE16 at an offset whose two bytes do not both lie in the frame: the address does not
  exist (R33, R56). Safe: the spec gives LE16 only the six offsets of R102. -/
  | noSuchOffset (o : Nat)
deriving DecidableEq, Repr

/-- Reasons to refuse. -/
inductive Refusal where
  /-- An instruction without a meaning yet, by its mnemonic. Safe. -/
  | notModelled (mnemonic : String)
  /-- Raised by LE16 at an offset in the frame that is no 16-bit field's low byte: "No operation reads a
  byte of a 16-bit field on its own, and no 16-bit read spans two fields" (R52, R102). Safe. -/
  | notAWordField (o : Nat)
  /-- Raised by a `decodeMoving` line whose inputs differ: "a model refuses such a run" (R58, R225). Safe. -/
  | inputsChangedWhileSampling
  /-- Raised by a FORMAT line with no successful DECODE before it: R79 and R180 give FORMAT the outputs
  of a DECODE that succeeded, and there is none. Safe. -/
  | nothingToFormat
  /-- Raised by a fetch whose frame matches no row. Never reached: FRAME144 matches every frame (R77).
  Safe. -/
  | noRowForFrame
deriving DecidableEq, Repr

/-- The block's wires and the host beside it. -/
structure State where
  /-- The input ports. -/
  inputs : Inputs
  /-- The output ports and internal signals of the latest evaluation. -/
  sig : Signals
  /-- The model's own: the host's program lines not yet run (R79). DESIGN CHOICE (log 7), safe. -/
  pending : List HostLine
  /-- The model's own: what the host sampled and printed, newest first (R205, R207).
  DESIGN CHOICE (log 8), safe. -/
  transcript : List HostEvent
deriving DecidableEq, Repr

/-- After power-up (R34, R220, R221): no input driven, no output defined, the strap at its tied value.
The spec gives the block no reset and nothing a reset could set; the host has nothing pending. -/
def State.reset : State where
  inputs := { hdrIn := none, lenIn := none, cfgCorrected := Config.cfgCorrected }
  sig := .undriven
  pending := []
  transcript := []

end Sys2Proof.Machine
end

