-- ==== Sys2Proof/Machine/Operands.lean ====
section
/-! DEFINITION. The operand forms: memory reads, the lanes of the frame (R9), and the multi-bit
values computed from a field (R140, R149, R160). -/

namespace Sys2Proof.Machine

open Sys2Proof

/-! ## The frame's address space -/

/-- What an unlisted lane reads as: no defined value (R25, R221, I12). DESIGN CHOICE (log 4), safe. -/
def Memory.unlisted : Option Byte := none

/-- The byte at an offset, if its lane carries a defined value. -/
def Memory.read : Memory → Nat → Option Byte
  | [], _ => Memory.unlisted
  | (a, b) :: m, k => if a = k then some b else Memory.read m k

/-- Drive one lane, keeping the offsets strictly rising. Only the host drives lanes (R54). -/
def Memory.drive : Memory → Nat → Byte → Memory
  | [], k, v => [(k, v)]
  | (a, b) :: m, k, v =>
    if k < a then (k, v) :: (a, b) :: m
    else if k = a then (k, v) :: m
    else (a, b) :: Memory.drive m k v

/-- The lanes from offset `k` on, driven with the bytes of a list. -/
def Memory.ofBytes : Nat → List Byte → Memory
  | _, [] => []
  | k, b :: bs => (k, b) :: Memory.ofBytes (k + 1) bs

/-- The canonical form: offsets strictly rising from `k` on and within the frame (R56). -/
def Memory.wfFrom : Nat → Memory → Bool
  | _, [] => true
  | k, (a, _) :: m => decide (k ≤ a) && decide (a < 18) && Memory.wfFrom (a + 1) m

/-- The canonical form of the whole frame. -/
def Memory.wf (m : Memory) : Bool := Memory.wfFrom 0 m

/-- The canonical form of the port, when it is driven. -/
def Inputs.lanesWf (x : Inputs) : Bool :=
  match x.hdrIn with
  | none => true
  | some m => m.wf

/-- Every lane driven: those not yet driven, with zeros. -/
def Memory.filled (m : Memory) : Memory :=
  Memory.ofBytes 0 ((List.range 18).map fun k => (m.read k).getD 0)

/-! ## Reads of the frame (R9, R54) -/

/-- `B[k]`, which is `MemRead(k, 1)` (R9). -/
def Inputs.byte (x : Inputs) (k : Nat) : Option Byte :=
  match x.hdrIn with
  | none => none
  | some m => m.read k

/-- `LE16(o)`, which is `MemRead(o, 2)` (R9, R102): defined when both lanes are. -/
def Inputs.word (x : Inputs) (o : Nat) : Option Word :=
  match x.byte o, x.byte (o + 1) with
  | some lo, some hi => some (le16 lo hi)
  | _, _ => none

/-- `colorMapType`, the operand of the presence predicates (R104, R130). -/
def Inputs.cmType (x : Inputs) : Option Byte := x.byte 1

/-- `imageTypeCode`, the operand of the image-type LUT (R105, R140). -/
def Inputs.typeCode (x : Inputs) : Option Byte := x.byte 2

/-- `d`, the descriptor byte, the operand of the slicer (R114, R160). -/
def Inputs.desc (x : Inputs) : Option Byte := x.byte 17

/-! ## Values computed from a field -/

/-- A TYPE8 row's pattern test: match under mask (R73). -/
def typeMatches (value mask code : Byte) : Bool := code &&& mask == value

/-- IMGTYPE_LUT (R140): classes 0 to 6 for codes 0 to 6, and class 7 for every other code. -/
def imgTypeLut (code : Byte) : BitVec 3 :=
  if code ≤ 6 then code.extractLsb' 0 3 else Config.typeUnknownIdx

/-- The name table TYPE_NAME (R149). UNVERIFIED (log 25): only two strings are confirmed by a
scenario of the source (I6). -/
def typeNameOf (idx : BitVec 3) : String :=
  match idx.toNat with
  | 0 => "No image data"
  | 1 => "Uncompressed color-mapped"
  | 2 => "Uncompressed true-color"
  | 3 => "Uncompressed black-and-white (grayscale)"
  | 4 => "Run-length encoded color-mapped"
  | 5 => "Run-length encoded true-color"
  | 6 => "Run-length encoded black-and-white (grayscale)"
  | _ => "UNKNOWN !!"

/-- `desc_alpha`: `d & 0b00001111`, 4 bits (R160). -/
def descAlphaOf (d : Byte) : BitVec 4 := (d &&& 0x0F).setWidth 4

end Sys2Proof.Machine
end

