-- ==== Sys2Proof/Machine/Flags.lean ====
section
/-! DEFINITION. The 1-bit values: the length check, the presence predicates, the type-known test and
the ordering flags. No flag is stored (R23). -/

namespace Sys2Proof.Machine

open Sys2Proof

/-- The length check's test, `len_in < 18` (R101). -/
def lenShort (n : Nat) : Bool := decide (n < Config.frameBytes)

/-- All 18 lanes of `hdr_in` carry a value: the frame is driven (R24, R221). -/
def Inputs.frameDriven (x : Inputs) : Bool := (List.range Config.frameBytes).all fun k => (x.byte k).isSome

/-- The value of `err` (R28, R101): undefined until the host drives `hdr_in` and `len_in` (R221); then 1
below 18 bytes, whatever the lanes carry ("with any lanes", R101; R206), and 0 from 18 on. A frame
that should pass the check and has a lane not driven is a port not yet driven.
DEDUCED (log 5), safe. -/
def Inputs.errOf (x : Inputs) : Option Bool :=
  match x.hdrIn, x.lenIn with
  | some _, some n => if lenShort n then some true else if x.frameDriven then some false else none
  | _, _ => none

/-- `colorMapType == 1` (R130). -/
def cmapSummaryOf (c : Byte) : Bool := c == 1

/-- `colorMapType != 0` (R131). -/
def cmapVerboseOf (c : Byte) : Bool := c != 0

/-- `type_idx != 7` (R150). -/
def typeKnownOf (idx : BitVec 3) : Bool := idx != Config.typeUnknownIdx

/-- `h_compat`: the masked value compared with the integer 1, the source's defect (R161). -/
def hCompatOf (d : Byte) : Bool := d &&& 0b00010000 == 1

/-- `h_corr`: the non-zero test of bit 4 (R162). -/
def hCorrOf (d : Byte) : Bool := d &&& 0b00010000 != 0

/-- `v_compat`: the masked value compared with the integer 1, the source's defect (R163). -/
def vCompatOf (d : Byte) : Bool := d &&& 0b00100000 == 1

/-- `v_corr`: the non-zero test of bit 5 (R164). -/
def vCorrOf (d : Byte) : Bool := d &&& 0b00100000 != 0

/-- DESC_SEL's `desc_h`: the strap chooses the test (R165). -/
def descHOf (d : Byte) (corrected : Bool) : Bool := if corrected then hCorrOf d else hCompatOf d

/-- DESC_SEL's `desc_v`: the strap chooses the test (R165). -/
def descVOf (d : Byte) (corrected : Bool) : Bool := if corrected then vCorrOf d else vCompatOf d

end Sys2Proof.Machine
end

