-- ==== Sys2Proof/Machine/Ops.lean ====
section
/-! DEFINITION. The operations the rows share: driving the input ports, the transaction with its
length check, and the one exception (R200). There is no return from an exception: "No return
instruction exists, and no error state persists" (R205). -/

namespace Sys2Proof.Machine

open Sys2Proof

/-! ## State updates -/

/-- Drive the output ports and internal signals. -/
def State.withSig (s : State) (g : Signals) : State := { s with sig := g }

/-- Drive the input ports. The outputs follow from the inputs (R34), so what they showed for the old
inputs is gone. DESIGN CHOICE (log 15), safe. -/
def State.withInputs (s : State) (x : Inputs) : State := { s with inputs := x, sig := .undriven }

/-- Replace the host's lines not yet run. -/
def State.withPending (s : State) (p : List HostLine) : State := { s with pending := p }

/-- Record one event of the host. -/
def State.record (s : State) (e : HostEvent) : State := { s with transcript := e :: s.transcript }

/-! ## The host drives the input ports -/

/-- The input ports a DECODE line gives: the first 18 bytes, and with a shorter buffer its `len`
bytes, the other lanes not driven (R24, R25, R79, R116). -/
def Presented.inputs (p : Presented) : Inputs where
  hdrIn := some (Memory.ofBytes 0 (p.bytes.take (min p.len Config.frameBytes)))
  lenIn := some p.len
  cfgCorrected := p.corrected

/-- The bytes of an R35 input record, presented by the host. -/
def presentedInput (x : Input) : Presented where
  bytes := x.frame.toList
  len := x.len
  corrected := x.corrected

/-- What a `len_in` port of `lenW` bits carries: the length, saturated, never wrapped (R25, D4). -/
def saturatedLen (lenW n : Nat) : Nat := min n (2 ^ lenW - 1)

/-- The value on the bus `hdr_in`; a lane that is not driven is taken as 0 here, which no rule reads:
it is used only to fetch, and FRAME144 matches every value (R77). -/
def Inputs.bus (x : Inputs) : BitVec 144 :=
  (List.range 18).foldr
    (fun k w => w ||| (((x.byte k).getD 0).setWidth 144 <<< (8 * k))) 0

/-! ## The exception (R200) -/

/-- The signals when the transaction takes InsufficientData: `err = 1`, `hdr_valid = 0`, and no other
output carries a defined value (R31, R200). -/
def Signals.insufficientData : Signals := { err := some true, hdrValid := some false }

/-- `raise InsufficientData()` (R200): no state is saved, no mode changes, nothing is recorded (R204).
DEDUCED (log 1), safe: it is a next state, and the host may go on (R205). -/
def raiseInsufficientData (s : State) : State := s.withSig .insufficientData

/-! ## The transaction -/

/-- The signals once the length check has passed (R100: `out.err <- 0 ; out.hdr_valid <- 1`). -/
def Signals.accepted (g : Signals) : Signals := { g with err := some false, hdrValid := some true }

/-- One row within a transaction: the length check goes before everything else (R101, R203); then
`drive` drives the row's own signals. Until the host drives `hdr_in` and `len_in` no output carries a
defined value (R221). DEDUCED (log 5, log 27). -/
def transaction (s : State) (drive : Signals → Signals) : State :=
  match s.inputs.errOf with
  | none => s.withSig .undriven
  | some true => raiseInsufficientData s
  | some false => s.withSig (drive s.sig.accepted)

/-- A TYPE8 row (R73, R141 to R148): when its pattern matches the code, it drives `type_idx` and
`type_known`; when it does not, the row is not selected (R76) and drives nothing. A code that is not
driven leaves both without a defined value. DEDUCED (log 11), safe. -/
def imageTypeRow (value mask : Byte) (idx : BitVec 3) (s : State) : State :=
  transaction s fun g =>
    match s.inputs.typeCode with
    | none => { g with typeIdx := none, typeKnown := none }
    | some code =>
      if typeMatches value mask code then
        { g with typeIdx := some idx, typeKnown := some (typeKnownOf idx) }
      else g

/-- Drive the internal signal `LE16(o)` (R102). -/
def Signals.driveLe16 (g : Signals) (o : Nat) (v : Option Word) : Signals :=
  match o with
  | 3 => { g with le16At3 := v }
  | 5 => { g with le16At5 := v }
  | 8 => { g with le16At8 := v }
  | 10 => { g with le16At10 := v }
  | 12 => { g with le16At12 := v }
  | 14 => { g with le16At14 := v }
  | _ => g

/-! ## What the host samples (R224) -/

/-- The output record of R29 and R30, when every port of it carries a defined value. -/
def Signals.decoded (g : Signals) : Option Decoded := do
  some
    { header :=
        { idLenField := ← g.idLenField
          colorMapType := ← g.colorMapType
          imageTypeCode := ← g.imageTypeCode
          colorMap :=
            { firstEntryIndex := ← g.firstEntryIndex
              mapLength := ← g.mapLength
              mapEntrySize := ← g.mapEntrySize }
          image :=
            { xOrigin := ← g.xOrigin
              yOrigin := ← g.yOrigin
              width := ← g.width
              height := ← g.height
              pixelDepth := ← g.pixelDepth
              descriptorByte := ← g.descriptorByte } }
      cmapPresentSummary := ← g.cmapPresentSummary
      cmapPresentVerbose := ← g.cmapPresentVerbose
      typeIdx := ← g.typeIdx
      typeKnown := ← g.typeKnown
      descAlpha := ← g.descAlpha
      descH := ← g.descH
      descV := ← g.descV }

end Sys2Proof.Machine
end

