-- ==== Sys2Proof/Machine/Descriptor.lean ====
section
/-! DEFINITION. The descriptor-byte slicer (R160 to R168). Bits 7:6 feed nothing (R166). -/

namespace Sys2Proof.Machine

open Sys2Proof

/-- DESC_ALPHA (R160). -/
def execDescAlpha (s : State) : Host.Outcome State Fault Refusal :=
  .next (transaction s fun g => { g with descAlpha := s.inputs.desc.map descAlphaOf })

/-- DESC_H_COMPAT (R161). -/
def execDescHCompat (s : State) : Host.Outcome State Fault Refusal :=
  .next (transaction s fun g => { g with hCompat := s.inputs.desc.map hCompatOf })

/-- DESC_H_CORR (R162). -/
def execDescHCorr (s : State) : Host.Outcome State Fault Refusal :=
  .next (transaction s fun g => { g with hCorr := s.inputs.desc.map hCorrOf })

/-- DESC_V_COMPAT (R163). -/
def execDescVCompat (s : State) : Host.Outcome State Fault Refusal :=
  .next (transaction s fun g => { g with vCompat := s.inputs.desc.map vCompatOf })

/-- DESC_V_CORR (R164). -/
def execDescVCorr (s : State) : Host.Outcome State Fault Refusal :=
  .next (transaction s fun g => { g with vCorr := s.inputs.desc.map vCorrOf })

/-- DESC_SEL (R165): the strap chooses which test drives `desc_h` and `desc_v`. -/
def execDescSel (s : State) : Host.Outcome State Fault Refusal :=
  .next (transaction s fun g =>
    { g with
      descH := s.inputs.desc.map fun d => descHOf d s.inputs.cfgCorrected
      descV := s.inputs.desc.map fun d => descVOf d s.inputs.cfgCorrected })

end Sys2Proof.Machine
end

