-- ==== Sys2Proof/Machine/Extract.lean ====
section
/-! DEFINITION. Field extraction, one row per field (R103 to R114). "Exceptions: none beyond rule
R101"; no field gates another (R115). -/

namespace Sys2Proof.Machine

open Sys2Proof

/-- EXT_IDLEN (R103): `MemRead(0, 1)`. -/
def execExtIdlen (s : State) : Host.Outcome State Fault Refusal :=
  .next (transaction s fun g => { g with idLenField := s.inputs.byte 0 })

/-- EXT_CMTYPE (R104): `MemRead(1, 1)`. -/
def execExtCmtype (s : State) : Host.Outcome State Fault Refusal :=
  .next (transaction s fun g => { g with colorMapType := s.inputs.byte 1 })

/-- EXT_IMGTYPE (R105): `MemRead(2, 1)`. -/
def execExtImgtype (s : State) : Host.Outcome State Fault Refusal :=
  .next (transaction s fun g => { g with imageTypeCode := s.inputs.byte 2 })

/-- EXT_CMFIRST (R106): `MemRead(3, 2)`. -/
def execExtCmfirst (s : State) : Host.Outcome State Fault Refusal :=
  .next (transaction s fun g => { g with firstEntryIndex := s.inputs.word 3 })

/-- EXT_CMLEN (R107): `MemRead(5, 2)`. -/
def execExtCmlen (s : State) : Host.Outcome State Fault Refusal :=
  .next (transaction s fun g => { g with mapLength := s.inputs.word 5 })

/-- EXT_CMESIZE (R108): `MemRead(7, 1)`. -/
def execExtCmesize (s : State) : Host.Outcome State Fault Refusal :=
  .next (transaction s fun g => { g with mapEntrySize := s.inputs.byte 7 })

/-- EXT_XORG (R109): `MemRead(8, 2)`. -/
def execExtXorg (s : State) : Host.Outcome State Fault Refusal :=
  .next (transaction s fun g => { g with xOrigin := s.inputs.word 8 })

/-- EXT_YORG (R110): `MemRead(10, 2)`. -/
def execExtYorg (s : State) : Host.Outcome State Fault Refusal :=
  .next (transaction s fun g => { g with yOrigin := s.inputs.word 10 })

/-- EXT_WIDTH (R111): `MemRead(12, 2)`. -/
def execExtWidth (s : State) : Host.Outcome State Fault Refusal :=
  .next (transaction s fun g => { g with width := s.inputs.word 12 })

/-- EXT_HEIGHT (R112): `MemRead(14, 2)`. -/
def execExtHeight (s : State) : Host.Outcome State Fault Refusal :=
  .next (transaction s fun g => { g with height := s.inputs.word 14 })

/-- EXT_PIXDEPTH (R113): `MemRead(16, 1)`. -/
def execExtPixdepth (s : State) : Host.Outcome State Fault Refusal :=
  .next (transaction s fun g => { g with pixelDepth := s.inputs.byte 16 })

/-- EXT_DESC (R114): `MemRead(17, 1)`. -/
def execExtDesc (s : State) : Host.Outcome State Fault Refusal :=
  .next (transaction s fun g => { g with descriptorByte := s.inputs.byte 17 })

end Sys2Proof.Machine
end

