-- ==== Sys2Proof/Machine/ImageType.lean ====
section
/-! DEFINITION. The image-type LUT's rows, the name table and the type-known flag (R140 to R151).
Codes 4 to 6 are the run-length classes and 9 to 11 are unknown, as the source has it (R148,
90_conflicts.md C5). -/

namespace Sys2Proof.Machine

open Sys2Proof

/-- IT_NONE (R141): match `0x00`, mask `0xFF`. -/
def execItNone (s : State) : Host.Outcome State Fault Refusal :=
  .next (imageTypeRow 0x00 0xFF 0 s)

/-- IT_CMAP (R142): match `0x01`, mask `0xFF`. -/
def execItCmap (s : State) : Host.Outcome State Fault Refusal :=
  .next (imageTypeRow 0x01 0xFF 1 s)

/-- IT_TRUE (R143): match `0x02`, mask `0xFF`. -/
def execItTrue (s : State) : Host.Outcome State Fault Refusal :=
  .next (imageTypeRow 0x02 0xFF 2 s)

/-- IT_GRAY (R144): match `0x03`, mask `0xFF`. -/
def execItGray (s : State) : Host.Outcome State Fault Refusal :=
  .next (imageTypeRow 0x03 0xFF 3 s)

/-- IT_RLE_CMAP (R145): match `0x04`, mask `0xFF`. -/
def execItRleCmap (s : State) : Host.Outcome State Fault Refusal :=
  .next (imageTypeRow 0x04 0xFF 4 s)

/-- IT_RLE_TRUE (R146): match `0x05`, mask `0xFF`. -/
def execItRleTrue (s : State) : Host.Outcome State Fault Refusal :=
  .next (imageTypeRow 0x05 0xFF 5 s)

/-- IT_RLE_GRAY (R147): match `0x06`, mask `0xFF`. -/
def execItRleGray (s : State) : Host.Outcome State Fault Refusal :=
  .next (imageTypeRow 0x06 0xFF 6 s)

/-- IT_UNKNOWN_7 (R148): match `0x07`, mask `0xFF`. -/
def execItUnknown7 (s : State) : Host.Outcome State Fault Refusal :=
  .next (imageTypeRow 0x07 0xFF 7 s)

/-- IT_UNKNOWN_8_15 (R148): match `0x08`, mask `0xF8`. -/
def execItUnknown8To15 (s : State) : Host.Outcome State Fault Refusal :=
  .next (imageTypeRow 0x08 0xF8 7 s)

/-- IT_UNKNOWN_16_31 (R148): match `0x10`, mask `0xF0`. -/
def execItUnknown16To31 (s : State) : Host.Outcome State Fault Refusal :=
  .next (imageTypeRow 0x10 0xF0 7 s)

/-- IT_UNKNOWN_32_63 (R148): match `0x20`, mask `0xE0`. -/
def execItUnknown32To63 (s : State) : Host.Outcome State Fault Refusal :=
  .next (imageTypeRow 0x20 0xE0 7 s)

/-- IT_UNKNOWN_64_127 (R148): match `0x40`, mask `0xC0`. -/
def execItUnknown64To127 (s : State) : Host.Outcome State Fault Refusal :=
  .next (imageTypeRow 0x40 0xC0 7 s)

/-- IT_UNKNOWN_128_255 (R148): match `0x80`, mask `0x80`. -/
def execItUnknown128To255 (s : State) : Host.Outcome State Fault Refusal :=
  .next (imageTypeRow 0x80 0x80 7 s)

/-- TYPE_NAME (R149): `imageTypeName = TYPE_NAME[type_idx]`. -/
def execTypeName (s : State) : Host.Outcome State Fault Refusal :=
  .next (transaction s fun g =>
    { g with imageTypeName := s.inputs.typeCode.map fun c => typeNameOf (imgTypeLut c) })

/-- TYPE_KNOWN (R150): `type_idx != 7`. -/
def execTypeKnown (s : State) : Host.Outcome State Fault Refusal :=
  .next (transaction s fun g =>
    { g with typeKnown := s.inputs.typeCode.map fun c => typeKnownOf (imgTypeLut c) })

end Sys2Proof.Machine
end

