-- ==== Sys2Proof/Machine/Presence.lean ====
section
/-! DEFINITION. The colour-map presence predicates (R130 to R133). The strap has no effect on them. -/

namespace Sys2Proof.Machine

open Sys2Proof

/-- CMAP_SUMMARY (R130). -/
def execCmapSummary (s : State) : Host.Outcome State Fault Refusal :=
  .next (transaction s fun g => { g with cmapPresentSummary := s.inputs.cmType.map cmapSummaryOf })

/-- CMAP_VERBOSE (R131). -/
def execCmapVerbose (s : State) : Host.Outcome State Fault Refusal :=
  .next (transaction s fun g => { g with cmapPresentVerbose := s.inputs.cmType.map cmapVerboseOf })

end Sys2Proof.Machine
end

