-- ==== Sys2Proof/Machine/Transaction.lean ====
section
/-! DEFINITION. The transaction as a whole: DECODE, LENCHK, LE16 (R100 to R102), and the total
function of R35. -/

namespace Sys2Proof.Machine

open Sys2Proof

/-- Every assignment of R100, and the internal signals its rows name, as a function of the input ports
alone (R20, R34). Six fields are 8 bits wide and six 16, as R29 and R71 list them, against the "eight
8-bit fields" that R54 counts. DEDUCED (log 30), unsafe. -/
def Signals.ofFrame (x : Inputs) : Signals where
  err := some false
  hdrValid := some true
  idLenField := x.byte 0
  colorMapType := x.byte 1
  imageTypeCode := x.byte 2
  firstEntryIndex := x.word 3
  mapLength := x.word 5
  mapEntrySize := x.byte 7
  xOrigin := x.word 8
  yOrigin := x.word 10
  width := x.word 12
  height := x.word 14
  pixelDepth := x.byte 16
  descriptorByte := x.byte 17
  cmapPresentSummary := x.cmType.map cmapSummaryOf
  cmapPresentVerbose := x.cmType.map cmapVerboseOf
  typeIdx := x.typeCode.map imgTypeLut
  typeKnown := x.typeCode.map fun c => typeKnownOf (imgTypeLut c)
  descAlpha := x.desc.map descAlphaOf
  descH := x.desc.map fun d => descHOf d x.cfgCorrected
  descV := x.desc.map fun d => descVOf d x.cfgCorrected
  le16At3 := x.word 3
  le16At5 := x.word 5
  le16At8 := x.word 8
  le16At10 := x.word 10
  le16At12 := x.word 12
  le16At14 := x.word 14
  imageTypeName := x.typeCode.map fun c => typeNameOf (imgTypeLut c)
  hCompat := x.desc.map hCompatOf
  hCorr := x.desc.map hCorrOf
  vCompat := x.desc.map vCompatOf
  vCorr := x.desc.map vCorrOf

/-- DECODE (R100): the length check, then every output in one evaluation. -/
def execDecode (s : State) : Host.Outcome State Fault Refusal :=
  .next (transaction s fun _ => Signals.ofFrame s.inputs)

/-- LENCHK (R101): InsufficientData exactly when `len_in < 18`; `err` and `hdr_valid` (R28). -/
def execLenchk (s : State) : Host.Outcome State Fault Refusal :=
  .next (transaction s id)

/-- LE16 (R102). At any other offset there is no such row (R52, R56): log 13. -/
def execLe16 (o : Nat) (s : State) : Host.Outcome State Fault Refusal :=
  if wordOffsets.contains o then
    .next (transaction s fun g => g.driveLe16 o (s.inputs.word o))
  else if o + 1 < Config.frameBytes then .refused (.notAWordField o)
  else .fault (.noSuchOffset o)

/-- The output record of R29 and R30 for these header fields (R100). -/
def decodedOf (h : Header) (corrected : Bool) : Decoded where
  header := h
  cmapPresentSummary := cmapSummaryOf h.colorMapType
  cmapPresentVerbose := cmapVerboseOf h.colorMapType
  typeIdx := imgTypeLut h.imageTypeCode
  typeKnown := typeKnownOf (imgTypeLut h.imageTypeCode)
  descAlpha := descAlphaOf h.image.descriptorByte
  descH := descHOf h.image.descriptorByte corrected
  descV := descVOf h.image.descriptorByte corrected

/-- R35's total function `decode : Input → Except InsufficientData Output`. -/
def decodeInput (x : Input) : Except InsufficientData Decoded :=
  if lenShort x.len then .error .insufficientData
  else .ok (decodedOf (unpack x.frame) x.corrected)

end Sys2Proof.Machine
end

