-- ==== Sys2Proof/Machine/Dispatch.lean ====
section
/-! DEFINITION. Dispatch: one arm per row of the opcode table. -/

namespace Sys2Proof.Machine

open Sys2Proof

def exec (i : Instr) (s : State) : Host.Outcome State Fault Refusal :=
  match i with
  | .decode => Sys2Proof.Machine.execDecode s
  | .lenchk => Sys2Proof.Machine.execLenchk s
  | .le16 o => Sys2Proof.Machine.execLe16 o s
  | .extIdlen => Sys2Proof.Machine.execExtIdlen s
  | .extCmtype => Sys2Proof.Machine.execExtCmtype s
  | .extImgtype => Sys2Proof.Machine.execExtImgtype s
  | .extCmfirst => Sys2Proof.Machine.execExtCmfirst s
  | .extCmlen => Sys2Proof.Machine.execExtCmlen s
  | .extCmesize => Sys2Proof.Machine.execExtCmesize s
  | .extXorg => Sys2Proof.Machine.execExtXorg s
  | .extYorg => Sys2Proof.Machine.execExtYorg s
  | .extWidth => Sys2Proof.Machine.execExtWidth s
  | .extHeight => Sys2Proof.Machine.execExtHeight s
  | .extPixdepth => Sys2Proof.Machine.execExtPixdepth s
  | .extDesc => Sys2Proof.Machine.execExtDesc s
  | .cmapSummary => Sys2Proof.Machine.execCmapSummary s
  | .cmapVerbose => Sys2Proof.Machine.execCmapVerbose s
  | .itNone => Sys2Proof.Machine.execItNone s
  | .itCmap => Sys2Proof.Machine.execItCmap s
  | .itTrue => Sys2Proof.Machine.execItTrue s
  | .itGray => Sys2Proof.Machine.execItGray s
  | .itRleCmap => Sys2Proof.Machine.execItRleCmap s
  | .itRleTrue => Sys2Proof.Machine.execItRleTrue s
  | .itRleGray => Sys2Proof.Machine.execItRleGray s
  | .itUnknown7 => Sys2Proof.Machine.execItUnknown7 s
  | .itUnknown8To15 => Sys2Proof.Machine.execItUnknown8To15 s
  | .itUnknown16To31 => Sys2Proof.Machine.execItUnknown16To31 s
  | .itUnknown32To63 => Sys2Proof.Machine.execItUnknown32To63 s
  | .itUnknown64To127 => Sys2Proof.Machine.execItUnknown64To127 s
  | .itUnknown128To255 => Sys2Proof.Machine.execItUnknown128To255 s
  | .typeKnown => Sys2Proof.Machine.execTypeKnown s
  | .typeName => Sys2Proof.Machine.execTypeName s
  | .descAlpha => Sys2Proof.Machine.execDescAlpha s
  | .descHCompat => Sys2Proof.Machine.execDescHCompat s
  | .descHCorr => Sys2Proof.Machine.execDescHCorr s
  | .descVCompat => Sys2Proof.Machine.execDescVCompat s
  | .descVCorr => Sys2Proof.Machine.execDescVCorr s
  | .descSel => Sys2Proof.Machine.execDescSel s

end Sys2Proof.Machine
end

