-- ==== Sys2Proof/Machine/Formatter.lean ====
section
/-! DEFINITION. The host's reference formatter (spec/44_host_formatter.md, R180 to R194): a total
function of the outputs of a DECODE that succeeded, for every setting of the OPEN parameters (D19). -/

namespace Sys2Proof.Machine

open Sys2Proof

/-- The decimal digits of `v`, most significant first (R181); `fuel` is more than their number. -/
def decDigits : Nat → Nat → List Char
  | 0, _ => []
  | fuel + 1, v =>
    if v < 10 then [Nat.digitChar v] else decDigits fuel (v / 10) ++ [Nat.digitChar (v % 10)]

/-- `dec(v)` (R181): no sign, no leading zeros, no separators. The spec's reading (D17). -/
def dec (v : Nat) : String := String.ofList (decDigits (v + 1) v)

/-- `NAME` (R149). -/
def nameText (d : Decoded) : String := typeNameOf d.typeIdx

/-- The end of both short lines: the dimensions (R182, R183). -/
def dimensionsText (d : Decoded) : String :=
  dec d.header.image.width.toNat ++ "x" ++ dec d.header.image.height.toNat

/-- SHORT_MAP (R182). -/
def shortMapText (d : Decoded) : String :=
  nameText d ++ " image, " ++ dec d.header.colorMap.mapEntrySize.toNat ++ "bit map, " ++
    dimensionsText d

/-- SHORT_NOMAP (R183). -/
def shortNoMapText (d : Decoded) : String :=
  nameText d ++ " image, no colour map, " ++ dimensionsText d

/-- The non-verbose line: `cmap_present_summary` chooses (R182, R183, R193). -/
def shortText (d : Decoded) : String :=
  if d.cmapPresentSummary then shortMapText d else shortNoMapText d

/-- V_ORDER, the horizontal word (R167, R191). -/
def horizontalText (h : Bool) : String := if h then "right to left" else "left to right"

/-- V_ORDER, the vertical word (R167, R191). -/
def verticalText (v : Bool) : String := if v then "top to bottom" else "bottom to top"

/-- V_DESC, the descriptor string (R190). -/
def descriptorText (d : Decoded) : String :=
  "Ordering: " ++ horizontalText d.descH ++ ", " ++ verticalText d.descV ++ ", " ++
    dec d.descAlpha.toNat ++ "bit alpha channel"

/-- V_IDLEN (R185). -/
def idLenLine (l : VerboseLayout) (d : Decoded) : String :=
  l.idLenBefore ++ dec d.header.idLenField.toNat ++ l.idLenAfter

/-- V_CMAP (R186): `cmap_present_verbose`, not the predicate of the short line (R193). -/
def colourMapLine (d : Decoded) : String :=
  if d.cmapPresentVerbose then "Colour Map? YES" else "Colour Map? NO"

/-- V_TYPE (R187). -/
def typeLine (l : VerboseLayout) (d : Decoded) : String :=
  l.typeBefore ++ nameText d ++ l.typeAfter

/-- V_CMBLOCK (R188): three tab-indented lines, whatever `colorMapType` is (D20). -/
def colourMapBlock (l : VerboseLayout) (d : Decoded) : List String :=
  ["\t" ++ "First Entry" ++ l.firstEntrySep ++ dec d.header.colorMap.firstEntryIndex.toNat,
   "\t" ++ "Map Length" ++ l.mapLengthSep ++ dec d.header.colorMap.mapLength.toNat,
   "\t" ++ "Entry Size" ++ l.entrySizeSep ++ dec d.header.colorMap.mapEntrySize.toNat ++ "bit"]

/-- V_IMGBLOCK (R189): six lines. -/
def imageBlock (l : VerboseLayout) (d : Decoded) : List String :=
  [l.imageIndent ++ "X Origin" ++ l.xOriginSep ++ dec d.header.image.xOrigin.toNat,
   l.imageIndent ++ "Y Origin" ++ l.yOriginSep ++ dec d.header.image.yOrigin.toNat,
   l.imageIndent ++ "Width" ++ l.widthSep ++ dec d.header.image.width.toNat,
   l.imageIndent ++ "Height" ++ l.heightSep ++ dec d.header.image.height.toNat,
   l.imageIndent ++ "Pixel Depth" ++ l.pixelDepthSep ++ dec d.header.image.pixelDepth.toNat ++
     l.pixelDepthSuffix,
   l.imageIndent ++ "Descriptor" ++ l.descriptorSep ++ descriptorText d]

/-- The twelve lines of VERBOSE, in the order of R184 (D18). -/
def verboseLines (l : VerboseLayout) (d : Decoded) : List String :=
  [idLenLine l d, colourMapLine d, typeLine l d] ++ colourMapBlock l d ++ imageBlock l d

/-- VERBOSE (R184): the lines with `LINE_TERMINATOR`, which also says whether the text ends with one. -/
def verboseText (l : VerboseLayout) (t : LineTerminator) (d : Decoded) : String :=
  t.separator.intercalate (verboseLines l d) ++ if t.atEnd then t.separator else ""

/-- FORMAT (R180). -/
def formatText (l : VerboseLayout) (t : LineTerminator) (d : Decoded) (verbose : Bool) : String :=
  if verbose then verboseText l t d else shortText d

end Sys2Proof.Machine
end

