-- ==== Sys2Proof/Machine/HostFlow.lean ====
section
/-! DEFINITION. What the host does at the block's boundary (R79, R207, R224). -/

namespace Sys2Proof.Machine

open Sys2Proof

/-- The host samples `err`, and only when it is 0 the other outputs (R224); on 1 it reports a read
failure (R207). What it samples when they carry no defined value is not stated: an event of its own,
with no value. DESIGN CHOICE (log 22), safe. -/
def hostSample (s : State) : State :=
  match s.sig.err, s.sig.decoded with
  | some true, _ => s.record .readFailure
  | some false, some d => s.record (.header d)
  | some false, none => s.record .undefinedHeader
  | none, _ => s.record .undefinedHeader

/-- The outputs of the latest successful DECODE (R79), if the transcript holds one. Passed over are a
DECODE that raised (log 17) and a DECODE whose outputs carried no defined value, of which the spec does
not say whether it succeeded. DESIGN CHOICE (log 28), unsafe. -/
def latestDecoded : List HostEvent → Option Decoded
  | [] => none
  | .header d :: _ => some d
  | .undefinedHeader :: t => latestDecoded t
  | .readFailure :: t => latestDecoded t
  | .shortFile :: t => latestDecoded t
  | .text _ :: t => latestDecoded t

/-- A FORMAT line (R79, R180): the text for the latest successful DECODE is printed. After a failed
DECODE the host does not format that transaction (R194); an earlier success still stands (R79, log 17),
also after a DECODE whose outputs were not defined (log 28). -/
def hostFormat (verbose : Bool) (s : State) : Host.Outcome State Fault Refusal :=
  match latestDecoded s.transcript with
  | none => .refused .nothingToFormat
  | some d => .next (s.record (.text (formatText Config.verboseLayout Config.lineTerminator d verbose)))

/-- The first 18 bytes of a file, presented as the host's buffer (R207, R224 steps 2 and 3). -/
def filePresented (contents : List Byte) (corrected : Bool) : Presented where
  bytes := contents.take Config.frameBytes
  len := (contents.take Config.frameBytes).length
  corrected := corrected

/-- The host's flow for one file (R207, R224): below 18 bytes the core is not invoked and a fixed
message is printed; otherwise a DECODE and a FORMAT follow. DEDUCED (log 21), safe. -/
def hostFile (contents : List Byte) (corrected verbose : Bool) (s : State) :
    Host.Outcome State Fault Refusal :=
  if contents.length < Config.frameBytes then .next (s.record .shortFile)
  else .next (s.withPending
    (.decode (filePresented contents corrected) :: .format verbose :: s.pending))

/-- What an event prints (R207); sampling a header prints nothing. -/
def HostEvent.message : HostEvent → Option String
  | .header _ => none
  | .undefinedHeader => none
  | .readFailure => some Config.readFailMsg
  | .shortFile => some Config.shortFileMsg
  | .text t => some t

end Sys2Proof.Machine
end

