-- ==== Sys2Proof/Machine/Step.lean ====
section
/-! DEFINITION. One step: the host's next line, or, with none pending, one evaluation of the block on
the inputs now presented (log 16). The block fetches no instructions (R60): what stands on
`hdr_in` is the frame, and every frame decodes to DECODE (R70, R76). -/

namespace Sys2Proof.Machine

open Sys2Proof

/-- Fetch: the row the frame on `hdr_in` decodes to. -/
def fetch (s : State) : Option Instr := decodeWord .frame144 s.inputs.bus.toNat

/-- Fetch and run. -/
def runFetched (s : State) : Host.Outcome State Fault Refusal :=
  match fetch s with
  | some i => exec i s
  | none => .refused .noRowForFrame

/-- The host samples when the transaction has a next state. -/
def sampled : Host.Outcome State Fault Refusal → Host.Outcome State Fault Refusal
  | .next s => .next (hostSample s)
  | .fault r => .fault r
  | .refused r => .refused r

/-- A DECODE line: drive the inputs, run the transaction, sample the outputs (R224). -/
def runDecodeLine (p : Presented) (s : State) : Host.Outcome State Fault Refusal :=
  sampled (runFetched (s.withInputs p.inputs))

/-- One step of the machine with its host. The host samples the outputs of a DECODE line only: not those
of a row line, DECODE's own among them, nor of a step with no line. DESIGN CHOICE (log 16, log 29). -/
def step (s : State) : Host.Outcome State Fault Refusal :=
  match s.pending with
  | [] => runFetched s
  | .decode p :: rest => runDecodeLine p (s.withPending rest)
  | .format verbose :: rest => hostFormat verbose (s.withPending rest)
  | .decodeMoving p q :: rest =>
    if p.inputs = q.inputs then runDecodeLine p (s.withPending rest)
    else .refused .inputsChangedWhileSampling
  | .file contents corrected verbose :: rest => hostFile contents corrected verbose (s.withPending rest)
  | .row i :: rest => exec i (s.withPending rest)

/-- The lanes that present a word of format `f`: a whole frame, or the byte that the format reads (R72 to
R74, R140) in a frame whose lanes not yet driven are driven with zeros, since a frame counts as driven
only as a whole (R221; log 6). No lane carries the class that TIDX3 encodes: it is computed from byte 2
(R140). A TIDX3 word is presented by the code equal to it, 0 to 6 for its class and 7 for class 7, which
249 codes share (R149). DESIGN CHOICE (log 31), safe. -/
def Memory.present (m : Memory) (f : Format) (w : Nat) : Memory :=
  match f with
  | .frame144 => Memory.ofBytes 0 (wordBytes 18 w)
  | .type8 => m.filled.drive 2 (BitVec.ofNat 8 w)
  | .tidx3 => m.filled.drive 2 (BitVec.ofNat 8 w)
  | .cmt8 => m.filled.drive 1 (BitVec.ofNat 8 w)
  | .desc8 => m.filled.drive 17 (BitVec.ofNat 8 w)
  | .len => m.filled

/-- The input ports that present a word of format `f`, with a length that passes the check. -/
def Inputs.present (x : Inputs) (f : Format) (w : Nat) : Inputs :=
  { x with hdrIn := some ((x.hdrIn.getD []).present f w), lenIn := some 18 }

/-- Present the word `w` of `nbits` bits in a driven frame with `len_in = 18` and queue the row it decodes to, so that
the next step runs exactly that row (log 6, log 9). -/
def State.withFetchWord (s : State) (nbits w : Nat) : State :=
  match formatOfBits nbits, decodeTableWord nbits w with
  | some f, some i =>
    (s.withInputs (s.inputs.present f w)).withPending (.row i :: s.pending)
  | _, _ => s

end Sys2Proof.Machine
end

