-- ==== Sys2Proof/Safety.lean ====
section
/-! DEFINITION. What counts as a sound state and a run that does not stop, in the terms the
statements use. -/

namespace Sys2Proof.Machine

open Sys2Proof

/-- What the block drives for these inputs, whatever it drove before (R20, R34). -/
def Signals.evaluated (x : Inputs) : Signals :=
  match x.errOf with
  | none => .undriven
  | some true => .insufficientData
  | some false => .ofFrame x

/-- A signal carries no defined value, or the value `b`. -/
abbrev Within {α : Type} (a b : Option α) : Prop := a = none ∨ a = b

/-- Every signal of `g` that carries a value carries the value of `e`. -/
structure Signals.WithinOf (g e : Signals) : Prop where
  err : Within g.err e.err
  hdrValid : Within g.hdrValid e.hdrValid
  idLenField : Within g.idLenField e.idLenField
  colorMapType : Within g.colorMapType e.colorMapType
  imageTypeCode : Within g.imageTypeCode e.imageTypeCode
  firstEntryIndex : Within g.firstEntryIndex e.firstEntryIndex
  mapLength : Within g.mapLength e.mapLength
  mapEntrySize : Within g.mapEntrySize e.mapEntrySize
  xOrigin : Within g.xOrigin e.xOrigin
  yOrigin : Within g.yOrigin e.yOrigin
  width : Within g.width e.width
  height : Within g.height e.height
  pixelDepth : Within g.pixelDepth e.pixelDepth
  descriptorByte : Within g.descriptorByte e.descriptorByte
  cmapPresentSummary : Within g.cmapPresentSummary e.cmapPresentSummary
  cmapPresentVerbose : Within g.cmapPresentVerbose e.cmapPresentVerbose
  typeIdx : Within g.typeIdx e.typeIdx
  typeKnown : Within g.typeKnown e.typeKnown
  descAlpha : Within g.descAlpha e.descAlpha
  descH : Within g.descH e.descH
  descV : Within g.descV e.descV
  le16At3 : Within g.le16At3 e.le16At3
  le16At5 : Within g.le16At5 e.le16At5
  le16At8 : Within g.le16At8 e.le16At8
  le16At10 : Within g.le16At10 e.le16At10
  le16At12 : Within g.le16At12 e.le16At12
  le16At14 : Within g.le16At14 e.le16At14
  imageTypeName : Within g.imageTypeName e.imageTypeName
  hCompat : Within g.hCompat e.hCompat
  hCorr : Within g.hCorr e.hCorr
  vCompat : Within g.vCompat e.vCompat
  vCorr : Within g.vCorr e.vCorr

/-- The invariant: the frame's lanes are in canonical form, and every signal that carries a value is
the function of the inputs that R34 says it is "at all times". -/
structure State.Inv (s : State) : Prop where
  lanes : s.inputs.lanesWf = true
  signals : s.sig.WithinOf (Signals.evaluated s.inputs)

/-- The host does its duty of R207 at this state: the frame's 18 bytes on the lanes, and a length that
passes the check. -/
def State.presents (s : State) (f : Frame) (n : Nat) : Prop :=
  s.inputs.lenIn = some n ∧ 18 ≤ n ∧ ∀ (k : Nat) (h : k < 18), s.inputs.byte k = some f[k]

/-- The host presents a buffer of `n` bytes that is too short, whatever the lanes carry (R25). -/
def State.presentsShort (s : State) (n : Nat) : Prop :=
  s.inputs.hdrIn ≠ none ∧ s.inputs.lenIn = some n ∧ n < 18

/-- A text is ASCII (R192). -/
def Ascii (t : String) : Prop := ∀ c ∈ t.toList, c.toNat < 128

/-- Rows run one after the other. -/
def runRows : List Instr → State → Host.Outcome State Fault Refusal
  | [], s => .next s
  | i :: is, s =>
    match exec i s with
    | .next t => runRows is t
    | .fault r => .fault r
    | .refused r => .refused r

/-- The host's next line is one this model stops on: inputs that change while they are sampled (R225),
a FORMAT with nothing decoded (R79), or an ill-formed LE16 (R102). -/
def State.stopsNow (s : State) : Prop :=
  match s.pending with
  | [] => False
  | .decode _ :: _ => False
  | .format _ :: _ => latestDecoded s.transcript = none
  | .decodeMoving p q :: _ => p.inputs ≠ q.inputs
  | .file _ _ _ :: _ => False
  | .row i :: _ => i.wellFormed = false

/-- The event with which the host records the result of R35's function. -/
def resultEvent : Except InsufficientData Decoded → HostEvent
  | .ok d => .header d
  | .error _ => .readFailure

end Sys2Proof.Machine
end

