-- ==== Sys2Proof/Certificates/Slice0/Obligations.lean ====
section
/-! DEFINITION. The statements for the provers. Each docstring says which sentence of spec/ it
formalises, or which model's choice (notes/assumptions/<n>.md) it rests on. -/

open Sys2Proof Sys2Proof.Machine

/-! ## Reset and invariants -/

/-- Right after power-up the invariant holds (R34, R220). -/
def Obligations.ResetMeetsInvariant : Prop := State.reset.Inv

/-- Right after power-up no port is driven (log 6), no output has a value, and the strap is 0, the value
of an instance that is not tied otherwise: the model's reading of R34 (log 23). Until the host drives
`len_in` no output carries a defined value, whichever row is evaluated (R221; log 5). -/
def Obligations.NothingDefinedBeforeLengthIsDriven : Prop :=
  State.reset.inputs = { hdrIn := none, lenIn := none, cfgCorrected := false } ∧
  State.reset.sig = {} ∧
  ∀ (i : Instr) (s : State), i.wellFormed = true → s.inputs.lenIn = none →
    exec i s = .next (s.withSig {})

/-- Every step keeps the invariant: the lanes stay canonical, and every signal that carries a value is
the function of the inputs that R34 says it is "at all times". -/
def Obligations.StepKeepsInvariant : Prop :=
  ∀ s t : State, s.Inv → step s = .next t → t.Inv

/-! ## What a step runs -/

/-- With no line pending, the step decodes the frame on `hdr_in`, which is DECODE whatever the frame is
(R70, R77), and runs it. That a step without a line evaluates the block is the model's choice (log 16). -/
def Obligations.StepRunsDecodedFrame : Prop :=
  ∀ s : State, s.pending = [] →
    decodeWord .frame144 s.inputs.bus.toNat = some .decode ∧ step s = exec .decode s

/-- A DECODE line drives the inputs, runs DECODE, and the host samples the outputs (R79, R224). -/
def Obligations.DecodeLineRunsDecode : Prop :=
  ∀ (s : State) (p : Presented) (rest : List HostLine), s.pending = .decode p :: rest →
    ∃ t, exec .decode ((s.withPending rest).withInputs p.inputs) = .next t ∧
      step s = .next (hostSample t)

/-- A row line runs its row on the inputs now presented: the model's own line (log 9). -/
def Obligations.RowLineRunsRow : Prop :=
  ∀ (s : State) (i : Instr) (rest : List HostLine), s.pending = .row i :: rest →
    step s = exec i (s.withPending rest)

/-- A word placed for the fetch is run as the row it decodes to, on inputs that present that word: its
lanes carry it, every lane is driven, and the length passes the check; everything of the host's is as it
was (log 6, log 9). For a TIDX3 word the lane carries the code equal to it (log 31). -/
def Obligations.FetchWordRunsDecodedRow : Prop :=
  ∀ (s : State) (nbits w : Nat) (f : Format) (i : Instr), formatOfBits nbits = some f →
    decodeTableWord nbits w = some i →
    ∃ u t, step (s.withFetchWord nbits w) = exec i u ∧ exec i u = .next t ∧
      u.inputs.hdrIn = some ((s.inputs.hdrIn.getD []).present f w) ∧
      (f = .frame144 → ∀ k < 18, u.inputs.byte k = some (BitVec.ofNat 8 (w >>> (8 * k)))) ∧
      (f = .type8 ∨ f = .tidx3 → u.inputs.byte 2 = some (BitVec.ofNat 8 w) ∧
        ∀ k < 18, k ≠ 2 → u.inputs.byte k = some ((s.inputs.byte k).getD 0)) ∧
      (f = .len → ∀ k < 18, u.inputs.byte k = some ((s.inputs.byte k).getD 0)) ∧
      u.inputs.lenIn = some 18 ∧ u.inputs.cfgCorrected = s.inputs.cfgCorrected ∧
      u.pending = s.pending ∧ u.transcript = s.transcript

/-- Only a DECODE line changes an input port; the block and every other line leave them (R54, R208). -/
def Obligations.OnlyDecodeLinesDriveInputs : Prop :=
  ∀ s t : State, step s = .next t →
    t.inputs = s.inputs ∨
    (∃ p rest, s.pending = .decode p :: rest ∧ t.inputs = p.inputs) ∨
    (∃ p q rest, s.pending = .decodeMoving p q :: rest ∧ p.inputs = q.inputs ∧ t.inputs = p.inputs)

/-- The host's runs that stop are exactly those: inputs that change while sampled (R225), a FORMAT with
nothing decoded (log 17), an ill-formed LE16 (log 13). Everything else has a next state. -/
def Obligations.StepStopsOnlyOnBadLines : Prop :=
  ∀ s : State, (∃ t, step s = .next t) ↔ ¬ s.stopsNow

/-! ## Encoding -/

/-- Words written out from spec/30_encoding.md, and the CMT8 and TIDX3 patterns of R130, R131 and R150,
decode to their rows. That an 8-bit word is read as TYPE8, that TIDX3 7 gives TYPE_KNOWN although
TYPE_NAME matches it too, and that CMT8 1 gives CMAP_SUMMARY although EXT_CMTYPE (R104) matches it too, is
the model's choice (log 10). -/
def Obligations.SampleWordsDecode : Prop :=
  decodeTableWord 144 0x18_20_00_20_00_10_FF_FE_80_01_0F_56_78_12_34_03_00_05 = some .decode ∧
  decodeTableWord 8 0b00000000 = some .itNone ∧
  decodeTableWord 8 0b00000110 = some .itRleGray ∧
  decodeTableWord 8 0b00000111 = some .itUnknown7 ∧
  decodeTableWord 8 0b00001001 = some .itUnknown8To15 ∧
  decodeTableWord 8 0b11111111 = some .itUnknown128To255 ∧
  decodeWord .cmt8 0b00000001 = some .cmapSummary ∧
  decodeWord .cmt8 0b00000000 = some .cmapVerbose ∧
  decodeWord .cmt8 0b11001000 = some .extCmtype ∧
  decodeWord .tidx3 0b111 = some .typeKnown

/-- A row whose pattern no earlier row shares decodes from its own bytes, at every value of the bits
its mask leaves open, and what follows in the buffer is left over. Every well-formed row, LE16, EXT_*,
TYPE_NAME and the descriptor rows among them, is in each of its formats one of the rows that its own bytes
match (for EXT_CMTYPE, EXT_IMGTYPE and EXT_DESC also CMT8, TYPE8 and DESC8: R104, R105, R114), and the
decoder gives the first of those (log 10). -/
def Obligations.DecodeOfEncodeIsTheRow : Prop :=
  (∀ (i : Instr) (free : Nat) (rest : List Byte),
    i ∈ [Instr.decode, .lenchk, .cmapSummary, .cmapVerbose,
         .itNone, .itCmap, .itTrue, .itGray, .itRleCmap, .itRleTrue, .itRleGray, .itUnknown7,
         .itUnknown8To15, .itUnknown16To31, .itUnknown32To63, .itUnknown64To127,
         .itUnknown128To255, .typeKnown, .descAlpha] →
    decodeBytes i.pattern.format (encode i free ++ rest) = .ok (i, rest)) ∧
  ([Instr.extCmtype, .extImgtype, .extDesc].map (fun i => i.patterns.map Pattern.format) =
    [[.frame144, .cmt8], [.frame144, .type8], [.frame144, .desc8]]) ∧
  ∀ (i : Instr) (p : Pattern) (free : Nat) (rest : List Byte), i.wellFormed = true → p ∈ i.patterns →
    ∃ j, decodeBytes p.format (p.encode free ++ rest) = .ok (j, rest) ∧
      i ∈ matchingRows p.format (bytesWord (p.encode free)) ∧
      (matchingRows p.format (bytesWord (p.encode free))).head? = some j

/-- Whatever the decoder reads, the row it gives has a pattern of that format, whose encoding, at some
value of the open bits, is the bytes that were read. -/
def Obligations.EncodeOfDecodeIsTheBytes : Prop :=
  ∀ (f : Format) (buf rest : List Byte) (i : Instr), decodeBytes f buf = .ok (i, rest) →
    i.wellFormed = true ∧ ∃ p ∈ i.patterns, p.format = f ∧ ∃ free, buf = p.encode free ++ rest

/-- R73: the thirteen match and mask pairs with their classes; "No two rows match the same code, and
every code from 0 to 255 matches exactly one row" of them (EXT_IMGTYPE reads every code beside it, R105).
That row drives the class and the flag. That every other image-type row then drives nothing of its own is
the model's reading (log 11), and that each row alone drives `err` and `hdr_valid` and leaves every other
signal is too (log 9, log 27). -/
def Obligations.EveryCodeSelectsOneTypeRow : Prop :=
  [Instr.itNone, .itCmap, .itTrue, .itGray, .itRleCmap, .itRleTrue, .itRleGray, .itUnknown7,
    .itUnknown8To15, .itUnknown16To31, .itUnknown32To63, .itUnknown64To127,
    .itUnknown128To255].map (fun i => (i.pattern.value, i.pattern.mask)) =
    [(0x00, 0xFF), (0x01, 0xFF), (0x02, 0xFF), (0x03, 0xFF), (0x04, 0xFF), (0x05, 0xFF),
      (0x06, 0xFF), (0x07, 0xFF), (0x08, 0xF8), (0x10, 0xF0), (0x20, 0xE0), (0x40, 0xC0),
      (0x80, 0x80)] ∧
  ∀ (s : State) (f : Frame) (n : Nat), s.presents f n →
    ∃ i, tableMatches .type8 f[2].toNat = [i] ∧ matchingRows .type8 f[2].toNat = [i, .extImgtype] ∧
      exec i s = .next (s.withSig { s.sig.accepted with
        typeIdx := some (if f[2].toNat ≤ 6 then BitVec.ofNat 3 f[2].toNat else 7)
        typeKnown := some (decide (f[2].toNat ≤ 6)) }) ∧
      ∀ j : Instr, j.pattern.format = .type8 → j ≠ i → exec j s = .next (s.withSig s.sig.accepted)

/-- R117: a frame packed from chosen field values decodes to exactly those values, and packing the
fields of a decoded frame gives the frame back, so decode loses no bit. -/
def Obligations.HeaderRoundTrip : Prop :=
  (∀ (h : Header) (s : State) (n : Nat), s.presents (pack h) n →
    ∃ t d, exec .decode s = .next t ∧ t.sig.err = some false ∧ t.sig.decoded = some d ∧ d.header = h) ∧
  (∀ (f : Frame) (s : State) (n : Nat), s.presents f n →
    ∃ t d, exec .decode s = .next t ∧ t.sig.decoded = some d ∧ pack d.header = f)

/-- R24, R51 and R71: byte `k` is on `hdr_in[8k+7:8k]`, and each field is the contiguous slice of the
bus that the layout table gives. The mapping to bus bits is the spec's own decision D3. -/
def Obligations.FieldsAreBusSlices : Prop :=
  ∀ (s : State) (f : Frame) (n : Nat), s.presents f n →
    (∀ (k : Nat) (h : k < 18), s.inputs.bus.extractLsb' (8 * k) 8 = f[k]) ∧
    ∃ t, exec .decode s = .next t ∧
      t.sig.idLenField = some (s.inputs.bus.extractLsb' 0 8) ∧
      t.sig.colorMapType = some (s.inputs.bus.extractLsb' 8 8) ∧
      t.sig.imageTypeCode = some (s.inputs.bus.extractLsb' 16 8) ∧
      t.sig.firstEntryIndex = some (s.inputs.bus.extractLsb' 24 16) ∧
      t.sig.mapLength = some (s.inputs.bus.extractLsb' 40 16) ∧
      t.sig.mapEntrySize = some (s.inputs.bus.extractLsb' 56 8) ∧
      t.sig.xOrigin = some (s.inputs.bus.extractLsb' 64 16) ∧
      t.sig.yOrigin = some (s.inputs.bus.extractLsb' 80 16) ∧
      t.sig.width = some (s.inputs.bus.extractLsb' 96 16) ∧
      t.sig.height = some (s.inputs.bus.extractLsb' 112 16) ∧
      t.sig.pixelDepth = some (s.inputs.bus.extractLsb' 128 8) ∧
      t.sig.descriptorByte = some (s.inputs.bus.extractLsb' 136 8)

/-! ## The transaction -/

/-- R100, R115: with a frame and a length that passes the check, DECODE drives every output, the ordering
flags by the strap (R165, the spec's own decision D7); below 18 bytes it takes InsufficientData, which
drives `err` and `hdr_valid` and defines nothing else (R200, R28, R31: the spec's own decisions D5 and D6;
that it is a next state is log 1, and that an undefined output is `none` log 2). Only signals change. -/
def Obligations.DecodeDrivesEveryOutput : Prop :=
  (∀ (s : State) (f : Frame) (n : Nat), s.presents f n →
    ∃ t, exec .decode s = .next t ∧ t = s.withSig t.sig ∧
      t.sig.err = some false ∧ t.sig.hdrValid = some true ∧
      t.sig.idLenField = some f[0] ∧ t.sig.colorMapType = some f[1] ∧
      t.sig.imageTypeCode = some f[2] ∧
      t.sig.firstEntryIndex = some (f[4] ++ f[3]) ∧ t.sig.mapLength = some (f[6] ++ f[5]) ∧
      t.sig.mapEntrySize = some f[7] ∧
      t.sig.xOrigin = some (f[9] ++ f[8]) ∧ t.sig.yOrigin = some (f[11] ++ f[10]) ∧
      t.sig.width = some (f[13] ++ f[12]) ∧ t.sig.height = some (f[15] ++ f[14]) ∧
      t.sig.pixelDepth = some f[16] ∧ t.sig.descriptorByte = some f[17] ∧
      t.sig.cmapPresentSummary = some (decide (f[1] = 1)) ∧
      t.sig.cmapPresentVerbose = some (decide (f[1] ≠ 0)) ∧
      t.sig.typeIdx = some (if f[2].toNat ≤ 6 then BitVec.ofNat 3 f[2].toNat else 7) ∧
      t.sig.typeKnown = some (decide (f[2].toNat ≤ 6)) ∧
      t.sig.descAlpha = some (f[17].extractLsb' 0 4) ∧
      t.sig.descH = some (s.inputs.cfgCorrected && f[17].getLsbD 4) ∧
      t.sig.descV = some (s.inputs.cfgCorrected && f[17].getLsbD 5)) ∧
  (∀ (s : State) (n : Nat), s.presentsShort n →
    exec .decode s = .next (s.withSig { err := some true, hdrValid := some false }))

/-- The machine refines R35's total function `decode : Input → Except InsufficientData Output`: on the
inputs of a record it drives exactly the record's outputs, or takes the error and defines nothing. -/
def Obligations.DecodeRefinesReferenceFunction : Prop :=
  ∀ (x : Input) (s : State), s.inputs = (presentedInput x).inputs →
    ∃ t, exec .decode s = .next t ∧ t = s.withSig t.sig ∧
      match decodeInput x with
      | .ok d => t.sig.err = some false ∧ t.sig.hdrValid = some true ∧ t.sig.decoded = some d
      | .error _ => t.sig = { err := some true, hdrValid := some false }

/-- R76: DECODE performs all the operations at once. Rows run one after the other give DECODE's
signals, in any order and with any repetitions, as soon as every row is among them. -/
def Obligations.DecodePerformsEveryRow : Prop :=
  ∀ (s : State) (rs : List Instr), (∀ i ∈ rs, i.wellFormed = true) →
    (∀ i ∈ tableRows, i ≠ .decode → i ∈ rs) → runRows rs s = exec .decode s

/-- R203: when the length check raises, no row drives anything but `err` and `hdr_valid`, whatever the
lanes carry. R203 marks the precedence as derived; that every row runs under the check is log 27. -/
def Obligations.ShortBufferStopsEveryRow : Prop :=
  ∀ (i : Instr) (s : State) (n : Nat), i.wellFormed = true → s.presentsShort n →
    exec i s = .next (s.withSig { err := some true, hdrValid := some false })

/-- R206: with a short buffer no lane of `hdr_in` influences an output: any other lanes on the port give
the same outputs. -/
def Obligations.ShortBufferReadsNoLane : Prop :=
  ∀ (i : Instr) (s : State) (m : Memory) (n : Nat), i.wellFormed = true → s.presentsShort n →
    ∃ t u, exec i s = .next t ∧ exec i { s with inputs := { s.inputs with hdrIn := some m } } = .next u ∧
      t.sig = u.sig

/-- R101 and R28: LENCHK raises exactly below 18 bytes, whatever the lanes carry; on a frame with a length
of at least 18 it only says that it did not. The encoding on the ports is the spec's own decision D5. That
the row alone drives `err` and `hdr_valid` also where the check passes, and leaves every other signal, is
the model's reading (log 9, log 27). -/
def Obligations.LengthCheckRaisesBelow18 : Prop :=
  ∀ (s : State) (n : Nat),
    (s.presentsShort n →
      exec .lenchk s = .next (s.withSig { err := some true, hdrValid := some false })) ∧
    ∀ f : Frame, s.presents f n →
      exec .lenchk s = .next (s.withSig { s.sig with err := some false, hdrValid := some true })

/-- R201: every well-formed row completes in every state; `err` is 1 exactly for a presented buffer of
fewer than 18 bytes and 0 exactly for a presented frame (R28). That no output is defined before is log 5,
and that every row alone drives `err` is log 27. -/
def Obligations.EveryRowCompletes : Prop :=
  ∀ (i : Instr) (s : State), i.wellFormed = true →
    ∃ t, exec i s = .next t ∧
      (t.sig.err = some true ↔ ∃ n, s.presentsShort n) ∧
      (t.sig.err = some false ↔ ∃ f n, s.presents f n)

/-- A row drives signals and nothing else: no input port, no byte of the frame, nothing of the host's
(R54: "The block never writes the frame or any other memory"). -/
def Obligations.RowsOnlyDriveSignals : Prop :=
  ∀ (i : Instr) (s t : State), exec i s = .next t →
    t.inputs.lenIn = s.inputs.lenIn ∧ t.inputs.cfgCorrected = s.inputs.cfgCorrected ∧
      (∀ k, t.inputs.byte k = s.inputs.byte k) ∧
      t.pending = s.pending ∧ t.transcript = s.transcript

/-- R55: evaluating a row again on the same inputs gives the same outputs. -/
def Obligations.EvaluationIsIdempotent : Prop :=
  ∀ (i : Instr) (s : State), i.wellFormed = true →
    ∃ t, exec i s = .next t ∧ exec i t = .next t

/-- R116: bytes beyond offset 17 never matter: lines whose first 18 bytes agree give the same
outputs, whatever their lengths of at least 18 and their later bytes. -/
def Obligations.TrailingBytesAreIgnored : Prop :=
  ∀ (s : State) (p q : Presented) (rest : List HostLine), 18 ≤ p.len → 18 ≤ q.len →
    p.bytes.take 18 = q.bytes.take 18 → p.corrected = q.corrected →
    ∃ t u, step (s.withPending (.decode p :: rest)) = .next t ∧
      step (s.withPending (.decode q :: rest)) = .next u ∧
      t.sig = u.sig ∧ t.transcript = u.transcript

/-- R25: a saturated `len_in` port of any width of at least 5 bits fits the port and gives the outputs
that the length itself gives. -/
def Obligations.SaturatedLengthChangesNothing : Prop :=
  ∀ (lenW n : Nat) (s : State), 5 ≤ lenW →
    saturatedLen lenW n < 2 ^ lenW ∧
    ∃ t u, exec .decode { s with inputs := { s.inputs with lenIn := some n } } = .next t ∧
      exec .decode { s with inputs := { s.inputs with lenIn := some (saturatedLen lenW n) } } = .next u ∧
      t.sig = u.sig

/-- R226 and R205: a DECODE line's outputs, and what the host records of it, depend on nothing that
went before. -/
def Obligations.TransactionsAreIndependent : Prop :=
  ∀ (s u : State) (p : Presented) (rest rest' : List HostLine),
    s.pending = .decode p :: rest → u.pending = .decode p :: rest' →
    ∃ t v e, step s = .next t ∧ step u = .next v ∧ t.sig = v.sig ∧ t.inputs = v.inputs ∧
      t.transcript = e :: s.transcript ∧ v.transcript = e :: u.transcript

/-- Until the host drives the whole frame, a length that passes the check gives no output a defined
value, whichever row is evaluated (R221), so there is no record to sample. That one lane not driven
leaves the port not driven is the model's reading (log 5). -/
def Obligations.UndrivenLaneLeavesRecordUndefined : Prop :=
  ∀ (i : Instr) (s : State) (n k : Nat), i.wellFormed = true → s.inputs.lenIn = some n → 18 ≤ n →
    k < 18 → s.inputs.byte k = none →
    exec i s = .next (s.withSig {}) ∧ (s.withSig {}).sig.decoded = none

/-! ## Field extraction -/

/-- R103, R104, R105, R108, R113, R114: each 8-bit field is its byte of the frame, unchanged. That each row
alone drives `err` and `hdr_valid` and leaves every other signal is the model's reading (log 9, log 27). -/
def Obligations.ByteFieldsExtracted : Prop :=
  ∀ (s : State) (f : Frame) (n : Nat), s.presents f n →
    exec .extIdlen s = .next (s.withSig { s.sig.accepted with idLenField := some f[0] }) ∧
    exec .extCmtype s = .next (s.withSig { s.sig.accepted with colorMapType := some f[1] }) ∧
    exec .extImgtype s = .next (s.withSig { s.sig.accepted with imageTypeCode := some f[2] }) ∧
    exec .extCmesize s = .next (s.withSig { s.sig.accepted with mapEntrySize := some f[7] }) ∧
    exec .extPixdepth s = .next (s.withSig { s.sig.accepted with pixelDepth := some f[16] }) ∧
    exec .extDesc s = .next (s.withSig { s.sig.accepted with descriptorByte := some f[17] })

/-- R106, R107, R109 to R112: each 16-bit field is its two bytes, the higher offset high. That each row
alone drives `err` and `hdr_valid` and leaves every other signal is the model's reading (log 9, log 27). -/
def Obligations.WordFieldsExtracted : Prop :=
  ∀ (s : State) (f : Frame) (n : Nat), s.presents f n →
    exec .extCmfirst s =
      .next (s.withSig { s.sig.accepted with firstEntryIndex := some (f[4] ++ f[3]) }) ∧
    exec .extCmlen s = .next (s.withSig { s.sig.accepted with mapLength := some (f[6] ++ f[5]) }) ∧
    exec .extXorg s = .next (s.withSig { s.sig.accepted with xOrigin := some (f[9] ++ f[8]) }) ∧
    exec .extYorg s = .next (s.withSig { s.sig.accepted with yOrigin := some (f[11] ++ f[10]) }) ∧
    exec .extWidth s = .next (s.withSig { s.sig.accepted with width := some (f[13] ++ f[12]) }) ∧
    exec .extHeight s = .next (s.withSig { s.sig.accepted with height := some (f[15] ++ f[14]) })

/-- R102: LE16 loses no bit and equals `B[o] + 256 * B[o+1]`, at odd offsets as at even ones. That its row
drives an internal signal, `err` and `hdr_valid`, and leaves every other signal, is the model's reading
(log 9, log 12, log 27). -/
def Obligations.Le16Assembles : Prop :=
  (∀ lo hi : Byte, le16 lo hi = hi ++ lo ∧ (le16 lo hi).toNat = lo.toNat + 256 * hi.toNat) ∧
  ∀ (s : State) (f : Frame) (n : Nat), s.presents f n →
    exec (.le16 3) s = .next (s.withSig { s.sig.accepted with le16At3 := some (f[4] ++ f[3]) }) ∧
    exec (.le16 5) s = .next (s.withSig { s.sig.accepted with le16At5 := some (f[6] ++ f[5]) }) ∧
    exec (.le16 8) s = .next (s.withSig { s.sig.accepted with le16At8 := some (f[9] ++ f[8]) }) ∧
    exec (.le16 10) s = .next (s.withSig { s.sig.accepted with le16At10 := some (f[11] ++ f[10]) }) ∧
    exec (.le16 12) s = .next (s.withSig { s.sig.accepted with le16At12 := some (f[13] ++ f[12]) }) ∧
    exec (.le16 14) s = .next (s.withSig { s.sig.accepted with le16At14 := some (f[15] ++ f[14]) })

/-- LE16 at an offset that is no 16-bit field's low byte stops: the model's choice (log 13). -/
def Obligations.Le16ElsewhereStops : Prop :=
  ∀ (s : State) (o : Nat), o ∉ [3, 5, 8, 10, 12, 14] →
    exec (.le16 o) s = if o < 17 then .refused (.notAWordField o) else .fault (.noSuchOffset o)

/-! ## Presence predicates -/

/-- R130 and R131: the two predicates, undefined when the transaction raises. That the mode does not
matter is the spec's own decision D8; that each row alone drives `err` and `hdr_valid` and leaves every
other signal is the model's reading (log 9, log 27). -/
def Obligations.PresencePredicates : Prop :=
  ∀ (s : State) (n : Nat),
    (∀ f : Frame, s.presents f n →
      exec .cmapSummary s =
        .next (s.withSig { s.sig.accepted with cmapPresentSummary := some (decide (f[1].toNat = 1)) }) ∧
      exec .cmapVerbose s =
        .next (s.withSig { s.sig.accepted with cmapPresentVerbose := some (decide (f[1].toNat ≠ 0)) })) ∧
    (s.presentsShort n →
      exec .cmapSummary s = .next (s.withSig { err := some true, hdrValid := some false }) ∧
      exec .cmapVerbose s = .next (s.withSig { err := some true, hdrValid := some false }))

/-- R132: the predicates disagree exactly when `colorMapType` is 2 to 255, where they are 0 and 1. That this
holds in both modes is the spec's own decision D8. -/
def Obligations.PredicatesDisagreeFrom2 : Prop :=
  ∀ (s : State) (f : Frame) (n : Nat), s.presents f n →
    ∃ t, exec .decode s = .next t ∧
      (t.sig.cmapPresentSummary ≠ t.sig.cmapPresentVerbose ↔ 2 ≤ f[1].toNat) ∧
      (2 ≤ f[1].toNat →
        t.sig.cmapPresentSummary = some false ∧ t.sig.cmapPresentVerbose = some true)

/-! ## Image type -/

/-- R141 to R147: the seven known codes, their classes and their names. That each row alone drives `err` and
`hdr_valid` and leaves every other signal is the model's reading (log 9, log 27). -/
def Obligations.KnownTypeRows : Prop :=
  ∀ (s : State) (f : Frame) (n : Nat), s.presents f n →
    (f[2] = 0 → exec .itNone s =
      .next (s.withSig { s.sig.accepted with typeIdx := some 0, typeKnown := some true })) ∧
    (f[2] = 1 → exec .itCmap s =
      .next (s.withSig { s.sig.accepted with typeIdx := some 1, typeKnown := some true })) ∧
    (f[2] = 2 → exec .itTrue s =
      .next (s.withSig { s.sig.accepted with typeIdx := some 2, typeKnown := some true })) ∧
    (f[2] = 3 → exec .itGray s =
      .next (s.withSig { s.sig.accepted with typeIdx := some 3, typeKnown := some true })) ∧
    (f[2] = 4 → exec .itRleCmap s =
      .next (s.withSig { s.sig.accepted with typeIdx := some 4, typeKnown := some true })) ∧
    (f[2] = 5 → exec .itRleTrue s =
      .next (s.withSig { s.sig.accepted with typeIdx := some 5, typeKnown := some true })) ∧
    (f[2] = 6 → exec .itRleGray s =
      .next (s.withSig { s.sig.accepted with typeIdx := some 6, typeKnown := some true })) ∧
    typeNameOf 0 = "No image data" ∧ typeNameOf 1 = "Uncompressed color-mapped" ∧
    typeNameOf 2 = "Uncompressed true-color" ∧
    typeNameOf 3 = "Uncompressed black-and-white (grayscale)" ∧
    typeNameOf 4 = "Run-length encoded color-mapped" ∧
    typeNameOf 5 = "Run-length encoded true-color" ∧
    typeNameOf 6 = "Run-length encoded black-and-white (grayscale)"

/-- R148: codes 7 to 255, 9 to 11 among them, are class 7, unknown, and no error. That each row alone drives
`err` and `hdr_valid` and leaves every other signal is the model's reading (log 9, log 27). -/
def Obligations.UnknownTypeRows : Prop :=
  ∀ (s : State) (f : Frame) (n : Nat), s.presents f n →
    (f[2].toNat = 7 → exec .itUnknown7 s =
      .next (s.withSig { s.sig.accepted with typeIdx := some 7, typeKnown := some false })) ∧
    (8 ≤ f[2].toNat → f[2].toNat ≤ 15 → exec .itUnknown8To15 s =
      .next (s.withSig { s.sig.accepted with typeIdx := some 7, typeKnown := some false })) ∧
    (16 ≤ f[2].toNat → f[2].toNat ≤ 31 → exec .itUnknown16To31 s =
      .next (s.withSig { s.sig.accepted with typeIdx := some 7, typeKnown := some false })) ∧
    (32 ≤ f[2].toNat → f[2].toNat ≤ 63 → exec .itUnknown32To63 s =
      .next (s.withSig { s.sig.accepted with typeIdx := some 7, typeKnown := some false })) ∧
    (64 ≤ f[2].toNat → f[2].toNat ≤ 127 → exec .itUnknown64To127 s =
      .next (s.withSig { s.sig.accepted with typeIdx := some 7, typeKnown := some false })) ∧
    (128 ≤ f[2].toNat → exec .itUnknown128To255 s =
      .next (s.withSig { s.sig.accepted with typeIdx := some 7, typeKnown := some false })) ∧
    typeNameOf 7 = "UNKNOWN !!"

/-- R149: the table of eight names, and what the name table's row gives for every code; on
InsufficientData the table is not read. That the read is an internal signal, and that the row alone drives
`err` and `hdr_valid` and leaves every other signal, is the model's reading (log 9, log 12, log 27). -/
def Obligations.TypeNames : Prop :=
  (∀ idx : BitVec 3, typeNameOf idx = ["No image data", "Uncompressed color-mapped",
    "Uncompressed true-color", "Uncompressed black-and-white (grayscale)",
    "Run-length encoded color-mapped", "Run-length encoded true-color",
    "Run-length encoded black-and-white (grayscale)", "UNKNOWN !!"].getD idx.toNat "") ∧
  ∀ (s : State) (n : Nat),
    (∀ f : Frame, s.presents f n →
      exec .typeName s = .next (s.withSig { s.sig.accepted with
        imageTypeName :=
          some (typeNameOf (if f[2].toNat ≤ 6 then BitVec.ofNat 3 f[2].toNat else 7)) })) ∧
    (s.presentsShort n →
      exec .typeName s = .next (s.withSig { err := some true, hdrValid := some false }))

/-- R150: `type_known` is 1 exactly for codes 0 to 6; undefined on InsufficientData. The port is the
spec's own decision D9; that the row alone drives `err` and `hdr_valid` and leaves every other signal is
the model's reading (log 9, log 27). -/
def Obligations.TypeKnownFlag : Prop :=
  ∀ (s : State) (n : Nat),
    (∀ f : Frame, s.presents f n →
      exec .typeKnown s =
        .next (s.withSig { s.sig.accepted with typeKnown := some (decide (f[2].toNat ≤ 6)) })) ∧
    (s.presentsShort n →
      exec .typeKnown s = .next (s.withSig { err := some true, hdrValid := some false }))

/-! ## Descriptor -/

/-- R160 to R164: the alpha depth, undefined when the transaction raises; the source's two tests, which
are 0 for every byte; and the two corrected tests, which are bits 4 and 5. That the tests are internal
signals, and that each row alone drives `err` and `hdr_valid` and leaves every other signal, is the
model's reading (log 9, log 12, log 27). -/
def Obligations.DescriptorSlices : Prop :=
  ∀ (s : State) (n : Nat),
    (∀ f : Frame, s.presents f n →
      exec .descAlpha s =
        .next (s.withSig { s.sig.accepted with descAlpha := some (f[17].extractLsb' 0 4) }) ∧
      exec .descHCompat s = .next (s.withSig { s.sig.accepted with hCompat := some false }) ∧
      exec .descHCorr s = .next (s.withSig { s.sig.accepted with hCorr := some (f[17].getLsbD 4) }) ∧
      exec .descVCompat s = .next (s.withSig { s.sig.accepted with vCompat := some false }) ∧
      exec .descVCorr s = .next (s.withSig { s.sig.accepted with vCorr := some (f[17].getLsbD 5) })) ∧
    (s.presentsShort n →
      exec .descAlpha s = .next (s.withSig { err := some true, hdrValid := some false }))

/-- R165: DESC_SEL gives 0 and 0 in compatibility mode and bits 4 and 5 in corrected mode; undefined on
InsufficientData. That a strap selects the mode is the spec's own decision D7; that the row alone drives
`err` and `hdr_valid` and leaves every other signal is the model's reading (log 9, log 27). -/
def Obligations.StrapSelectsOrderingFlags : Prop :=
  ∀ (s : State) (n : Nat),
    (∀ f : Frame, s.presents f n →
      exec .descSel s = .next (s.withSig
        (if s.inputs.cfgCorrected then
          { s.sig.accepted with descH := some (f[17].getLsbD 4), descV := some (f[17].getLsbD 5) }
         else { s.sig.accepted with descH := some false, descV := some false }))) ∧
    (s.presentsShort n →
      exec .descSel s = .next (s.withSig { err := some true, hdrValid := some false }))

/-- R168: in compatibility mode both ordering flags are 0 for every descriptor byte ("left to right" and
"bottom to top", R167), while the alpha depth varies. R168 marks the property as derived from R160, R161,
R163 and R165, and the strap is the spec's own decision D7. -/
def Obligations.CompatibilityModeIsConstant : Prop :=
  ∀ (s : State) (f : Frame) (n : Nat), s.presents f n → s.inputs.cfgCorrected = false →
    ∃ t, exec .decode s = .next t ∧ t.sig.descH = some false ∧ t.sig.descV = some false ∧
      t.sig.descAlpha = some ((f[17] &&& 0x0F).setWidth 4)

/-- R166: descriptor bits 7:6 appear in the raw byte only: frames that differ in nothing else give the
same of every other signal, in both modes. -/
def Obligations.ReservedDescriptorBitsFeedNothing : Prop :=
  ∀ (s u : State) (f g : Frame) (m n : Nat), s.presents f m → u.presents g n →
    s.inputs.cfgCorrected = u.inputs.cfgCorrected →
    (∀ (k : Nat) (h : k < 17), f[k] = g[k]) → f[17].extractLsb' 0 6 = g[17].extractLsb' 0 6 →
    ∃ t v, exec .decode s = .next t ∧ exec .decode u = .next v ∧
      t.sig.descriptorByte = some f[17] ∧
      v.sig = { t.sig with descriptorByte := some g[17] }

/-- R26: the strap's only effect is on `desc_h` and `desc_v`. -/
def Obligations.StrapReachesOnlyOrderingFlags : Prop :=
  ∀ (i : Instr) (s : State) (b : Bool), i.wellFormed = true →
    ∃ t u, exec i s = .next t ∧
      exec i { s with inputs := { s.inputs with cfgCorrected := b } } = .next u ∧
      u.sig = { t.sig with descH := u.sig.descH, descV := u.sig.descV } ∧
      (i ≠ .decode → i ≠ .descSel → u.sig = t.sig)

/-! ## The host and the reference formatter -/

/-- R58: inputs that change while the outputs are sampled are refused, and unchanged ones are a DECODE
line like any other. -/
def Obligations.ChangingInputsAreRefused : Prop :=
  ∀ (s : State) (p q : Presented) (rest : List HostLine), s.pending = .decodeMoving p q :: rest →
    (p.inputs ≠ q.inputs → step s = .refused .inputsChangedWhileSampling) ∧
    (p.inputs = q.inputs → step s = step (s.withPending (.decode p :: rest)))

/-- R35: a sequence of transactions is the list of inputs mapped through R35's function, each result
recorded on its own; no transaction depends on an earlier one. -/
def Obligations.SequenceMapsReferenceFunction : Prop :=
  ∀ (xs : List Input) (s : State),
    s.pending = xs.map (fun x => HostLine.decode (presentedInput x)) →
    ∃ t : State, Host.Core.run Sys2Proof.core xs.length s = .next t ∧ t.pending = [] ∧
      t.transcript = (xs.map fun x => resultEvent (decodeInput x)).reverse ++ s.transcript

/-- R194 and R207: after a DECODE that raises, the host reports `READ_FAIL_MSG`, and formats nothing of
it. That the host goes on with its other lines, and that an earlier success still stands for a later
FORMAT (R79), is the model's reading (log 17). -/
def Obligations.FailedDecodeIsReported : Prop :=
  ∀ (s : State) (p : Presented) (rest : List HostLine), s.pending = .decode p :: rest → p.len < 18 →
    ∃ t, step s = .next t ∧ t.pending = rest ∧ t.transcript = .readFailure :: s.transcript ∧
      HostEvent.readFailure.message = some Config.readFailMsg ∧
      latestDecoded t.transcript = latestDecoded s.transcript

/-- A FORMAT line prints the text for the latest successful DECODE and changes nothing else (R79,
R180); with none it is refused (log 17). Passing over a DECODE that raised, or whose outputs carried no
defined value, is the model's choice (log 17, log 28). -/
def Obligations.FormatLinePrints : Prop :=
  ∀ (s : State) (verbose : Bool) (rest : List HostLine), s.pending = .format verbose :: rest →
    (∀ t : String, (HostEvent.text t).message = some t) ∧
    (latestDecoded s.transcript = none → step s = .refused .nothingToFormat) ∧
    ∀ d, latestDecoded s.transcript = some d →
      step s = .next { s with
        pending := rest
        transcript := .text (formatText Config.verboseLayout Config.lineTerminator d verbose) ::
          s.transcript }

/-- The host's flow for a file (R207, R224): below 18 bytes the core is not invoked and `SHORT_FILE_MSG` is
printed; otherwise the first 18 bytes are decoded and their text is printed. The expansion into lines is
the model's (log 21). -/
def Obligations.FileFlow : Prop :=
  ∀ (s : State) (contents : List Byte) (corrected verbose : Bool) (rest : List HostLine),
    s.pending = .file contents corrected verbose :: rest →
    (contents.length < 18 →
      step s = .next { s with pending := rest, transcript := .shortFile :: s.transcript } ∧
        HostEvent.shortFile.message = some Config.shortFileMsg) ∧
    ∀ (f : Frame) (later : List Byte), contents = f.toList ++ later →
      ∃ t : State, Host.Core.run Sys2Proof.core 3 s = .next t ∧ t.pending = rest ∧
        t.transcript =
          .text (formatText Config.verboseLayout Config.lineTerminator
            (decodedOf (unpack f) corrected) verbose) ::
          .header (decodedOf (unpack f) corrected) :: s.transcript

/-- R182 and R183: the two short lines, for every setting of the open texts. `cmap_present_summary`
chooses, and for a decoded frame that is `colorMapType` 1 against 0 and 2 to 255. -/
def Obligations.ShortLines : Prop :=
  (∀ (l : VerboseLayout) (e : LineTerminator) (d : Decoded),
    (d.cmapPresentSummary = true → formatText l e d false =
      typeNameOf d.typeIdx ++ " image, " ++ dec d.header.colorMap.mapEntrySize.toNat ++ "bit map, " ++
        (dec d.header.image.width.toNat ++ "x" ++ dec d.header.image.height.toNat)) ∧
    (d.cmapPresentSummary = false → formatText l e d false =
      typeNameOf d.typeIdx ++ " image, no colour map, " ++
        (dec d.header.image.width.toNat ++ "x" ++ dec d.header.image.height.toNat))) ∧
  ∀ (l : VerboseLayout) (e : LineTerminator) (s : State) (f : Frame) (n : Nat), s.presents f n →
    ∃ t d, exec .decode s = .next t ∧ t.sig.decoded = some d ∧
      (f[1].toNat = 1 → formatText l e d false =
        typeNameOf d.typeIdx ++ " image, " ++ dec f[7].toNat ++ "bit map, " ++
          (dec (f[13] ++ f[12]).toNat ++ "x" ++ dec (f[15] ++ f[14]).toNat)) ∧
      (f[1].toNat = 0 ∨ 2 ≤ f[1].toNat → formatText l e d false =
        typeNameOf d.typeIdx ++ " image, no colour map, " ++
          (dec (f[13] ++ f[12]).toNat ++ "x" ++ dec (f[15] ++ f[14]).toNat))

/-- R181: the digits are decimal, the value is read back from them, and there is no leading zero. -/
def Obligations.DecimalRendering : Prop :=
  ∀ v : Nat, (∀ c ∈ (dec v).toList, c.isDigit = true) ∧ (dec v).toList ≠ [] ∧
    ((dec v).toList.head? = some '0' → (dec v).toList = ['0']) ∧
    (dec v).toList.foldl (fun a c => 10 * a + (c.toNat - '0'.toNat)) 0 = v

/-- R184 to R189: the verbose block is twelve lines in this order, for every setting of the open
texts. -/
def Obligations.VerboseBlock : Prop :=
  ∀ (l : VerboseLayout) (e : LineTerminator) (d : Decoded),
    formatText l e d true = e.separator.intercalate
      [l.idLenBefore ++ dec d.header.idLenField.toNat ++ l.idLenAfter,
       if d.cmapPresentVerbose then "Colour Map? YES" else "Colour Map? NO",
       l.typeBefore ++ typeNameOf d.typeIdx ++ l.typeAfter,
       "\t" ++ "First Entry" ++ l.firstEntrySep ++ dec d.header.colorMap.firstEntryIndex.toNat,
       "\t" ++ "Map Length" ++ l.mapLengthSep ++ dec d.header.colorMap.mapLength.toNat,
       "\t" ++ "Entry Size" ++ l.entrySizeSep ++ dec d.header.colorMap.mapEntrySize.toNat ++ "bit",
       l.imageIndent ++ "X Origin" ++ l.xOriginSep ++ dec d.header.image.xOrigin.toNat,
       l.imageIndent ++ "Y Origin" ++ l.yOriginSep ++ dec d.header.image.yOrigin.toNat,
       l.imageIndent ++ "Width" ++ l.widthSep ++ dec d.header.image.width.toNat,
       l.imageIndent ++ "Height" ++ l.heightSep ++ dec d.header.image.height.toNat,
       l.imageIndent ++ "Pixel Depth" ++ l.pixelDepthSep ++ dec d.header.image.pixelDepth.toNat ++
         l.pixelDepthSuffix,
       l.imageIndent ++ "Descriptor" ++ l.descriptorSep ++ descriptorText d] ++
      if e.atEnd then e.separator else ""

/-- R190 and R191: the descriptor string and the ordering words, and what a compatibility-mode
transaction's is for every descriptor byte. -/
def Obligations.DescriptorString : Prop :=
  (∀ d : Decoded, descriptorText d =
    "Ordering: " ++ (if d.descH then "right to left" else "left to right") ++ ", " ++
      (if d.descV then "top to bottom" else "bottom to top") ++ ", " ++
      dec d.descAlpha.toNat ++ "bit alpha channel") ∧
  ∀ (s : State) (f : Frame) (n : Nat), s.presents f n → s.inputs.cfgCorrected = false →
    ∃ t d, exec .decode s = .next t ∧ t.sig.decoded = some d ∧
      descriptorText d = "Ordering: left to right, bottom to top, " ++
        dec (f[17] &&& 0x0F).toNat ++ "bit alpha channel"

/-- R192: the texts the rules fix are ASCII, so each character is one byte: the short line, the
descriptor string and the colour-map presence line for every record, and the whole text, with the labels
of R188 and R189 and the name in the type line, whenever the texts the spec leaves open are. -/
def Obligations.FixedTextsAreAscii : Prop :=
  (∀ d : Decoded, Ascii (shortText d) ∧ Ascii (descriptorText d) ∧ Ascii (colourMapLine d)) ∧
  ∀ (l : VerboseLayout) (e : LineTerminator) (d : Decoded) (verbose : Bool),
    (∀ x ∈ [l.idLenBefore, l.idLenAfter, l.typeBefore, l.typeAfter, l.firstEntrySep, l.mapLengthSep,
        l.entrySizeSep, l.imageIndent, l.xOriginSep, l.yOriginSep, l.widthSep, l.heightSep,
        l.pixelDepthSep, l.pixelDepthSuffix, l.descriptorSep, e.separator], Ascii x) →
    Ascii (formatText l e d verbose)

/-- Until the host drives `hdr_in` no output carries a defined value, whichever row is evaluated and
whatever `len_in` is (R221). -/
def Obligations.NothingDefinedBeforeFrameIsDriven : Prop :=
  ∀ (i : Instr) (s : State), i.wellFormed = true → s.inputs.hdrIn = none →
    exec i s = .next (s.withSig {})
end

