-- ==== Sys2Proof/Laws/Memory.lean ====
section
/-! SUPPORT. The frame's address space: reads after drives, and that every operation keeps the
canonical form. -/

namespace Sys2Proof.Machine

open Sys2Proof

@[simp] theorem Memory.read_nil (k : Nat) : Memory.read [] k = none := rfl

theorem Memory.read_cons (a : Nat) (b : Byte) (m : Memory) (k : Nat) :
    Memory.read ((a, b) :: m) k = if a = k then some b else Memory.read m k := rfl

theorem Memory.wfFrom_cons (k a : Nat) (b : Byte) (m : Memory) :
    Memory.wfFrom k ((a, b) :: m) = true ↔ k ≤ a ∧ a < 18 ∧ Memory.wfFrom (a + 1) m = true := by
  simp [Memory.wfFrom, and_assoc]

theorem Memory.wfFrom_mono {m : Memory} {j k : Nat} (hjk : j ≤ k)
    (h : Memory.wfFrom k m = true) : Memory.wfFrom j m = true := by
  cases m with
  | nil => rfl
  | cons c m =>
    obtain ⟨hk, ha, hm⟩ := (Memory.wfFrom_cons ..).1 h
    exact (Memory.wfFrom_cons ..).2 ⟨hjk.trans hk, ha, hm⟩

/-- A canonical memory from `k` on lists no lane below `k`. -/
theorem Memory.read_below {m : Memory} {j k : Nat} (h : Memory.wfFrom k m = true) (hj : j < k) :
    Memory.read m j = none := by
  induction m generalizing k with
  | nil => rfl
  | cons c m ih =>
    obtain ⟨hk, -, hm⟩ := (Memory.wfFrom_cons ..).1 h
    rw [Memory.read_cons, if_neg (by omega), ih hm (by omega)]

/-- Driving a lane: that lane reads the byte, and every other lane reads as before. -/
theorem Memory.read_drive (m : Memory) (k : Nat) (v : Byte) (j : Nat) :
    Memory.read (m.drive k v) j = if j = k then some v else Memory.read m j := by
  induction m with
  | nil => simp [Memory.drive, Memory.read_cons, eq_comm]
  | cons c m ih =>
    obtain ⟨a, b⟩ := c
    unfold Memory.drive
    split_ifs <;> simp only [Memory.read_cons, ih] <;> split_ifs <;> first | rfl | omega

theorem Memory.wfFrom_drive {m : Memory} {j k : Nat} (v : Byte) (h : Memory.wfFrom j m = true)
    (hj : j ≤ k) (hk : k < 18) : Memory.wfFrom j (m.drive k v) = true := by
  induction m generalizing j with
  | nil => simp [Memory.drive, Memory.wfFrom, hj, hk]
  | cons c m ih =>
    obtain ⟨a, b⟩ := c
    obtain ⟨hja, ha, hm⟩ := (Memory.wfFrom_cons ..).1 h
    unfold Memory.drive
    split_ifs with h1 h2
    · exact (Memory.wfFrom_cons ..).2 ⟨hj, hk, (Memory.wfFrom_cons ..).2 ⟨by omega, ha, hm⟩⟩
    · subst h2
      exact (Memory.wfFrom_cons ..).2 ⟨hj, hk, hm⟩
    · exact (Memory.wfFrom_cons ..).2 ⟨hja, ha, ih hm (by omega)⟩

/-- Driving a lane keeps the canonical form. -/
theorem Memory.wf_drive {m : Memory} {k : Nat} (v : Byte) (h : m.wf = true) (hk : k < 18) :
    (m.drive k v).wf = true := Memory.wfFrom_drive v h (Nat.zero_le k) hk

theorem Memory.wfFrom_ofBytes (k : Nat) (bs : List Byte) (h : k + bs.length ≤ 18) :
    Memory.wfFrom k (Memory.ofBytes k bs) = true := by
  induction bs generalizing k with
  | nil => rfl
  | cons b bs ih =>
    simp only [List.length_cons] at h
    exact (Memory.wfFrom_cons ..).2 ⟨le_rfl, by omega, ih (k + 1) (by omega)⟩

/-- A DECODE line drives a canonical memory. -/
theorem Presented.inputs_wf (p : Presented) : p.inputs.lanesWf = true :=
  Memory.wfFrom_ofBytes 0 _ (by simp [Config.frameBytes])

theorem Memory.read_ofBytes (j : Nat) (bs : List Byte) (k : Nat) :
    Memory.read (Memory.ofBytes j bs) k = if j ≤ k then bs[k - j]? else none := by
  induction bs generalizing j with
  | nil => simp [Memory.ofBytes]
  | cons b bs ih =>
    rw [Memory.ofBytes, Memory.read_cons, ih]
    by_cases h : j = k
    · simp [h]
    · by_cases h' : j + 1 ≤ k
      · rw [if_neg h, if_pos h', if_pos (by omega), show k - j = (k - (j + 1)) + 1 by omega,
          List.getElem?_cons_succ]
      · rw [if_neg h, if_neg h', if_neg (by omega)]

/-- Filling the frame keeps what is driven and drives the rest with zeros. -/
theorem Memory.read_filled (m : Memory) (k : Nat) :
    m.filled.read k = if k < 18 then some ((m.read k).getD 0) else none := by
  simp only [Memory.filled, Memory.read_ofBytes, Nat.zero_le, if_true, Nat.sub_zero, List.getElem?_map]
  by_cases h : k < 18 <;> simp [h]

theorem Memory.wf_filled (m : Memory) : m.filled.wf = true := Memory.wfFrom_ofBytes 0 _ (by simp)

/-- Presenting a word of any format gives the canonical form. -/
theorem Memory.wf_present (m : Memory) (f : Format) (w : Nat) : (m.present f w).wf = true := by
  cases f with
  | len => exact m.wf_filled
  | frame144 => exact Memory.wfFrom_ofBytes 0 _ (by simp [wordBytes])
  | cmt8 => exact Memory.wf_drive _ m.wf_filled (by decide)
  | type8 => exact Memory.wf_drive _ m.wf_filled (by decide)
  | desc8 => exact Memory.wf_drive _ m.wf_filled (by decide)
  | tidx3 => exact Memory.wf_drive _ m.wf_filled (by decide)

theorem Inputs.present_wf (x : Inputs) (f : Format) (w : Nat) : (x.present f w).lanesWf = true :=
  Memory.wf_present _ f w

/-- Presenting a word of any format drives every lane. -/
theorem Inputs.present_byte_isSome (x : Inputs) (f : Format) (w k : Nat) (hk : k < 18) :
    ((x.present f w).byte k).isSome = true := by
  cases f <;>
    simp only [Inputs.byte, Inputs.present, Memory.present, Memory.read_drive, Memory.read_filled,
      Memory.read_ofBytes, hk, if_true, Nat.zero_le, Nat.sub_zero] <;>
    first
      | rfl
      | (split <;> rfl)
      | simp [wordBytes, hk]

theorem State.reset_wf : State.reset.inputs.lanesWf = true := rfl

end Sys2Proof.Machine
end

