-- ==== Sys2Proof/Laws/State.lean ====
section
/-! SUPPORT. One lemma per field of State and update of it, so that no later proof unfolds a record
update. -/

namespace Sys2Proof.Machine

open Sys2Proof

@[simp] theorem State.withSig_inputs (s : State) (g : Signals) : (s.withSig g).inputs = s.inputs := rfl

@[simp] theorem State.withSig_sig (s : State) (g : Signals) : (s.withSig g).sig = g := rfl

@[simp] theorem State.withSig_pending (s : State) (g : Signals) : (s.withSig g).pending = s.pending := rfl

@[simp] theorem State.withSig_transcript (s : State) (g : Signals) : (s.withSig g).transcript = s.transcript := rfl

@[simp] theorem State.withInputs_inputs (s : State) (x : Inputs) : (s.withInputs x).inputs = x := rfl

@[simp] theorem State.withInputs_sig (s : State) (x : Inputs) : (s.withInputs x).sig = .undriven := rfl

@[simp] theorem State.withInputs_pending (s : State) (x : Inputs) : (s.withInputs x).pending = s.pending := rfl

@[simp] theorem State.withInputs_transcript (s : State) (x : Inputs) : (s.withInputs x).transcript = s.transcript := rfl

@[simp] theorem State.withPending_inputs (s : State) (p : List HostLine) : (s.withPending p).inputs = s.inputs := rfl

@[simp] theorem State.withPending_sig (s : State) (p : List HostLine) : (s.withPending p).sig = s.sig := rfl

@[simp] theorem State.withPending_pending (s : State) (p : List HostLine) : (s.withPending p).pending = p := rfl

@[simp] theorem State.withPending_transcript (s : State) (p : List HostLine) : (s.withPending p).transcript = s.transcript := rfl

@[simp] theorem State.record_inputs (s : State) (e : HostEvent) : (s.record e).inputs = s.inputs := rfl

@[simp] theorem State.record_sig (s : State) (e : HostEvent) : (s.record e).sig = s.sig := rfl

@[simp] theorem State.record_pending (s : State) (e : HostEvent) : (s.record e).pending = s.pending := rfl

@[simp] theorem State.record_transcript (s : State) (e : HostEvent) : (s.record e).transcript = e :: s.transcript := rfl

@[simp] theorem State.withSig_withSig (s : State) (g h : Signals) :
    (s.withSig g).withSig h = s.withSig h := rfl

@[simp] theorem State.withSig_self (s : State) : s.withSig s.sig = s := rfl

@[simp] theorem Signals.accepted_err (g : Signals) : g.accepted.err = some false := rfl

@[simp] theorem Signals.accepted_hdrValid (g : Signals) : g.accepted.hdrValid = some true := rfl

@[simp] theorem Signals.accepted_accepted (g : Signals) : g.accepted.accepted = g.accepted := rfl

end Sys2Proof.Machine
end

