-- ==== Sys2Proof/Laws/Ops.lean ====
section
/-! SUPPORT. One lemma for each shared operation, which says everything it can do. -/

namespace Sys2Proof.Machine

open Sys2Proof

theorem lenShort_iff (n : Nat) : lenShort n = true ↔ n < 18 := decide_eq_true_iff

theorem lenShort_eq_false {n : Nat} (h : 18 ≤ n) : lenShort n = false :=
  decide_eq_false (Nat.not_lt.2 h)

/-! ## The length check's answer -/

theorem Inputs.frameDriven_iff (x : Inputs) : x.frameDriven = true ↔ ∀ k < 18, (x.byte k).isSome = true := by
  simp [Inputs.frameDriven, Config.frameBytes]

theorem Inputs.hdrIn_ne_none_of_byte {x : Inputs} {k : Nat} (h : (x.byte k).isSome = true) :
    x.hdrIn ≠ none := by
  intro hn
  simp [Inputs.byte, hn] at h

/-- `err` is 1 exactly for a presented buffer of fewer than 18 bytes. -/
theorem Inputs.errOf_eq_true {x : Inputs} :
    x.errOf = some true ↔ x.hdrIn ≠ none ∧ ∃ n, x.lenIn = some n ∧ n < 18 := by
  unfold Inputs.errOf
  rcases x.hdrIn with _ | m <;> rcases x.lenIn with _ | n <;> simp [← lenShort_iff]

/-- `err` is 0 exactly for a driven frame with a length of at least 18. -/
theorem Inputs.errOf_eq_false {x : Inputs} :
    x.errOf = some false ↔ (∀ k < 18, (x.byte k).isSome = true) ∧ ∃ n, x.lenIn = some n ∧ 18 ≤ n := by
  rw [← Inputs.frameDriven_iff]
  constructor
  · intro h
    unfold Inputs.errOf at h
    split at h
    · rename_i n _ hn
      split_ifs at h with h1 h2
      · cases h
      exact ⟨h2, n, hn, Nat.not_lt.1 fun hlt => h1 ((lenShort_iff n).2 hlt)⟩
    · cases h
  · rintro ⟨hd, n, hn, h18⟩
    obtain ⟨m, hm⟩ := Option.ne_none_iff_exists'.1
      (Inputs.hdrIn_ne_none_of_byte (x.frameDriven_iff.1 hd 0 (by decide)))
    simp [Inputs.errOf, hm, hn, lenShort_eq_false h18, hd]

theorem State.presents.errOf {s : State} {f : Frame} {n : Nat} (h : s.presents f n) :
    s.inputs.errOf = some false :=
  Inputs.errOf_eq_false.2 ⟨fun k hk => by rw [h.2.2 k hk]; rfl, n, h.1, h.2.1⟩

theorem State.presentsShort.errOf {s : State} {n : Nat} (h : s.presentsShort n) :
    s.inputs.errOf = some true := Inputs.errOf_eq_true.2 ⟨h.1, n, h.2⟩

/-- A frame is presented exactly when `err` is 0. -/
theorem State.exists_presents_iff {s : State} :
    (∃ f n, s.presents f n) ↔ s.inputs.errOf = some false := by
  refine ⟨fun ⟨f, n, h⟩ => h.errOf, fun h => ?_⟩
  obtain ⟨hd, n, hn, h18⟩ := Inputs.errOf_eq_false.1 h
  refine ⟨Vector.ofFn fun k => (s.inputs.byte k).getD 0, n, hn, h18, fun k hk => ?_⟩
  obtain ⟨b, hb⟩ := Option.isSome_iff_exists.1 (hd k hk)
  simp [hb]

/-! ## The transaction -/

theorem transaction_undriven {s : State} (d : Signals → Signals) (h : s.inputs.errOf = none) :
    transaction s d = s.withSig .undriven := by
  simp [transaction, h]

theorem transaction_short {s : State} (d : Signals → Signals) (h : s.inputs.errOf = some true) :
    transaction s d = s.withSig .insufficientData := by
  simp [transaction, h, raiseInsufficientData]

theorem transaction_accepted {s : State} (d : Signals → Signals) (h : s.inputs.errOf = some false) :
    transaction s d = s.withSig (d s.sig.accepted) := by
  simp [transaction, h]

/-- A row drives signals and nothing else: the three things it can do. -/
theorem transaction_cases (s : State) (d : Signals → Signals) :
    (s.inputs.errOf = none ∧ transaction s d = s.withSig .undriven) ∨
    (s.inputs.errOf = some true ∧ transaction s d = s.withSig .insufficientData) ∨
    (s.inputs.errOf = some false ∧ transaction s d = s.withSig (d s.sig.accepted)) := by
  rcases h : s.inputs.errOf with _ | _ | _
  · exact .inl ⟨rfl, transaction_undriven d h⟩
  · exact .inr (.inr ⟨rfl, transaction_accepted d h⟩)
  · exact .inr (.inl ⟨rfl, transaction_short d h⟩)

/-- Every row leaves the inputs, the host's lines and the transcript alone. -/
theorem transaction_eq_withSig (s : State) (d : Signals → Signals) :
    transaction s d = s.withSig (transaction s d).sig := by
  rcases transaction_cases s d with ⟨-, h⟩ | ⟨-, h⟩ | ⟨-, h⟩ <;> rw [h] <;> rfl

/-- The exception drives `err` and `hdr_valid` and leaves every other output undefined (R200). -/
theorem raiseInsufficientData_sig (s : State) :
    (raiseInsufficientData s).sig = { err := some true, hdrValid := some false } := rfl

/-! ## Reads -/

theorem Inputs.word_of_bytes {x : Inputs} {o : Nat} {lo hi : Byte} (h0 : x.byte o = some lo)
    (h1 : x.byte (o + 1) = some hi) : x.word o = some (le16 lo hi) := by
  simp [Inputs.word, h0, h1]

/-- A 16-bit read is defined exactly when both lanes are. -/
theorem Inputs.word_eq_some {x : Inputs} {o : Nat} {v : Word} :
    x.word o = some v ↔ ∃ lo hi, x.byte o = some lo ∧ x.byte (o + 1) = some hi ∧ le16 lo hi = v := by
  unfold Inputs.word
  cases x.byte o <;> cases x.byte (o + 1) <;> simp

/-- What lane `k` carries after a DECODE line: the line's byte, if it is presented (R25, R79). -/
theorem Presented.inputs_byte (p : Presented) (k : Nat) :
    p.inputs.byte k = if k < min p.len 18 then p.bytes[k]? else none := by
  simp only [Inputs.byte, Presented.inputs, Memory.read_ofBytes, Nat.zero_le, if_true, Nat.sub_zero,
    List.getElem?_take, Config.frameBytes]

/-! ## The image-type rows -/

theorem imageTypeRow_selected {s : State} {c value mask : Byte} (idx : BitVec 3)
    (h : s.inputs.errOf = some false) (hc : s.inputs.byte 2 = some c)
    (hm : c &&& mask = value) :
    imageTypeRow value mask idx s = s.withSig
      { s.sig.accepted with typeIdx := some idx, typeKnown := some (typeKnownOf idx) } := by
  have hc' : s.inputs.typeCode = some c := hc
  simp [imageTypeRow, transaction_accepted _ h, hc', typeMatches, hm]

theorem imageTypeRow_unselected {s : State} {c value mask : Byte} (idx : BitVec 3)
    (h : s.inputs.errOf = some false) (hc : s.inputs.byte 2 = some c)
    (hm : c &&& mask ≠ value) :
    imageTypeRow value mask idx s = s.withSig s.sig.accepted := by
  have hc' : s.inputs.typeCode = some c := hc
  simp [imageTypeRow, transaction_accepted _ h, hc', typeMatches, hm]

/-! ## The host -/

/-- The host records one event, and leaves the block and its own queue alone. -/
theorem hostSample_eq (s : State) : ∃ e, hostSample s = s.record e := by
  unfold hostSample
  split <;> exact ⟨_, rfl⟩

/-- A sampled record holds exactly what the ports carried. -/
theorem Signals.decoded_eq_some {g : Signals} {d : Decoded} (h : g.decoded = some d) :
    g.idLenField = some d.header.idLenField ∧ g.colorMapType = some d.header.colorMapType ∧
    g.imageTypeCode = some d.header.imageTypeCode ∧
    g.firstEntryIndex = some d.header.colorMap.firstEntryIndex ∧
    g.mapLength = some d.header.colorMap.mapLength ∧
    g.mapEntrySize = some d.header.colorMap.mapEntrySize ∧
    g.xOrigin = some d.header.image.xOrigin ∧ g.yOrigin = some d.header.image.yOrigin ∧
    g.width = some d.header.image.width ∧ g.height = some d.header.image.height ∧
    g.pixelDepth = some d.header.image.pixelDepth ∧
    g.descriptorByte = some d.header.image.descriptorByte ∧
    g.cmapPresentSummary = some d.cmapPresentSummary ∧
    g.cmapPresentVerbose = some d.cmapPresentVerbose ∧ g.typeIdx = some d.typeIdx ∧
    g.typeKnown = some d.typeKnown ∧ g.descAlpha = some d.descAlpha ∧ g.descH = some d.descH ∧
    g.descV = some d.descV := by
  unfold Signals.decoded at h
  obtain ⟨_, h1, h⟩ := Option.bind_eq_some_iff.1 h
  obtain ⟨_, h2, h⟩ := Option.bind_eq_some_iff.1 h
  obtain ⟨_, h3, h⟩ := Option.bind_eq_some_iff.1 h
  obtain ⟨_, h4, h⟩ := Option.bind_eq_some_iff.1 h
  obtain ⟨_, h5, h⟩ := Option.bind_eq_some_iff.1 h
  obtain ⟨_, h6, h⟩ := Option.bind_eq_some_iff.1 h
  obtain ⟨_, h7, h⟩ := Option.bind_eq_some_iff.1 h
  obtain ⟨_, h8, h⟩ := Option.bind_eq_some_iff.1 h
  obtain ⟨_, h9, h⟩ := Option.bind_eq_some_iff.1 h
  obtain ⟨_, h10, h⟩ := Option.bind_eq_some_iff.1 h
  obtain ⟨_, h11, h⟩ := Option.bind_eq_some_iff.1 h
  obtain ⟨_, h12, h⟩ := Option.bind_eq_some_iff.1 h
  obtain ⟨_, h13, h⟩ := Option.bind_eq_some_iff.1 h
  obtain ⟨_, h14, h⟩ := Option.bind_eq_some_iff.1 h
  obtain ⟨_, h15, h⟩ := Option.bind_eq_some_iff.1 h
  obtain ⟨_, h16, h⟩ := Option.bind_eq_some_iff.1 h
  obtain ⟨_, h17, h⟩ := Option.bind_eq_some_iff.1 h
  obtain ⟨_, h18, h⟩ := Option.bind_eq_some_iff.1 h
  obtain ⟨_, h19, h⟩ := Option.bind_eq_some_iff.1 h
  cases h
  exact ⟨h1, h2, h3, h4, h5, h6, h7, h8, h9, h10, h11, h12, h13, h14, h15, h16, h17, h18, h19⟩

end Sys2Proof.Machine
end

