-- ==== Sys2Proof/Laws/Decode.lean ====
section
/-! SUPPORT. The encodings: byte assembly, bytes and words, and the fetch. -/

namespace Sys2Proof

theorem and_xor_self_and (x mask full : Nat) :
    (x &&& (mask ^^^ full)) &&& mask = x &&& (mask &&& full ^^^ mask) := by
  apply Nat.eq_of_testBit_eq
  intro k
  simp only [Nat.testBit_and, Nat.testBit_xor]
  cases x.testBit k <;> cases mask.testBit k <;> cases full.testBit k <;> rfl

/-- A pattern that fits its format: `mask` within the format, and `value` within `mask`. -/
def Pattern.Fits (p : Pattern) : Prop :=
  p.mask &&& (2 ^ p.format.bits - 1) ^^^ p.mask = 0 ∧ p.value &&& p.mask = p.value ∧
    p.value < 2 ^ p.format.bits

/-- A pattern's word matches it, whatever the open bits are. -/
theorem Pattern.Fits.matchesWord {p : Pattern} (h : p.Fits) (free : Nat) :
    p.matchesWord (p.word free) = true := by
  simp only [Pattern.matchesWord, Pattern.word, beq_iff_eq, Nat.and_or_distrib_right,
    and_xor_self_and, h.1, h.2.1, Nat.and_zero, Nat.or_zero]

/-- A pattern's word fits its format. -/
theorem Pattern.Fits.word_lt {p : Pattern} (h : p.Fits) (free : Nat) :
    p.word free < 2 ^ p.format.bits :=
  Nat.or_lt_two_pow h.2.2 (lt_of_le_of_lt Nat.and_le_left (Nat.mod_lt _ (Nat.two_pow_pos _)))

theorem Pattern.selects_iff {p : Pattern} {f : Format} {w : Nat} :
    p.selects f w = true ↔ p.format = f ∧ p.matchesWord w = true := by
  simp [Pattern.selects]

/-- A row matches a word of a format exactly when one of its patterns does. -/
theorem mem_matchingRows {f : Format} {w : Nat} {i : Instr} :
    i ∈ matchingRows f w ↔ i ∈ tableRows ∧ ∃ p ∈ i.patterns, p.format = f ∧ p.matchesWord w = true := by
  simp only [matchingRows, tableMatches, List.mem_append, List.mem_filter, Option.any_eq_true,
    Pattern.selects_iff, Instr.patterns, List.mem_cons, Option.mem_toList, exists_eq_or_imp, and_or_left]

theorem bytesWord_lt (bs : List Byte) : bytesWord bs < 2 ^ (8 * bs.length) := by
  induction bs with
  | nil => simp [bytesWord]
  | cons b bs ih =>
    have hb := b.isLt
    simp only [bytesWord, List.length_cons, show 8 * (bs.length + 1) = 8 + 8 * bs.length by ring,
      pow_add]
    norm_num at hb ⊢
    omega

namespace Machine

/-- Every frame fetches DECODE (R70, R77). -/
theorem fetch_eq_decode (s : State) : fetch s = some .decode := by
  have h : s.inputs.bus.toNat < 2 ^ Format.frame144.bits := s.inputs.bus.isLt
  simp only [fetch, decodeWord, h, if_true]
  simp [matchingRows, tableMatches, tableRows, Instr.pattern, Pattern.selects, Pattern.matchesWord]

end Machine

end Sys2Proof
end

