-- ==== Sys2Proof/Laws/PerInstr.lean ====
section
/-! SUPPORT. Statements made for every row, one lemma per constructor. -/

namespace Sys2Proof.Laws

open Sys2Proof

/-- A well-formed row is among the rows that its own words match, in each of its formats and whatever
their open bits are, and its words fit their format. -/
def OwnPattern.Statement (i : Instr) : Prop :=
  i.wellFormed = true → i ∈ tableRows ∧ ∀ p ∈ i.patterns, ∀ free : Nat,
    p.matchesWord (p.word free) = true ∧ p.word free < 2 ^ p.format.bits ∧
      i ∈ matchingRows p.format (p.word free)

/-- The facts about one row's table entries from which its Statement follows. -/
theorem OwnPattern.of_entry (i : Instr) (hmem : i.wellFormed = true → i ∈ tableRows)
    (hp : ∀ p ∈ i.patterns, p.Fits) : OwnPattern.Statement i :=
  fun hwf => ⟨hmem hwf, fun p h free =>
    ⟨(hp p h).matchesWord free, (hp p h).word_lt free,
      mem_matchingRows.2 ⟨hmem hwf, p, h, rfl, (hp p h).matchesWord free⟩⟩⟩

theorem le16_mem_tableRows {o : Nat} (h : (Instr.le16 o).wellFormed = true) :
    Instr.le16 o ∈ tableRows := by
  simp only [Instr.wellFormed, wordOffsets, List.contains_eq_mem, List.mem_cons, List.not_mem_nil,
    or_false, decide_eq_true_eq] at h
  rcases h with rfl | rfl | rfl | rfl | rfl | rfl <;> decide

theorem OwnPattern.decode : OwnPattern.Statement .decode :=
  OwnPattern.of_entry _ (by decide) (by unfold Pattern.Fits; decide)

theorem OwnPattern.lenchk : OwnPattern.Statement .lenchk :=
  OwnPattern.of_entry _ (by decide) (by unfold Pattern.Fits; decide)

theorem OwnPattern.le16 (o : Nat) : OwnPattern.Statement (.le16 o) :=
  OwnPattern.of_entry _ le16_mem_tableRows (by simp [Instr.patterns, Instr.pattern, Instr.fieldPattern, Pattern.Fits])

theorem OwnPattern.extIdlen : OwnPattern.Statement .extIdlen :=
  OwnPattern.of_entry _ (by decide) (by unfold Pattern.Fits; decide)

theorem OwnPattern.extCmtype : OwnPattern.Statement .extCmtype :=
  OwnPattern.of_entry _ (by decide) (by unfold Pattern.Fits; decide)

theorem OwnPattern.extImgtype : OwnPattern.Statement .extImgtype :=
  OwnPattern.of_entry _ (by decide) (by unfold Pattern.Fits; decide)

theorem OwnPattern.extCmfirst : OwnPattern.Statement .extCmfirst :=
  OwnPattern.of_entry _ (by decide) (by unfold Pattern.Fits; decide)

theorem OwnPattern.extCmlen : OwnPattern.Statement .extCmlen :=
  OwnPattern.of_entry _ (by decide) (by unfold Pattern.Fits; decide)

theorem OwnPattern.extCmesize : OwnPattern.Statement .extCmesize :=
  OwnPattern.of_entry _ (by decide) (by unfold Pattern.Fits; decide)

theorem OwnPattern.extXorg : OwnPattern.Statement .extXorg :=
  OwnPattern.of_entry _ (by decide) (by unfold Pattern.Fits; decide)

theorem OwnPattern.extYorg : OwnPattern.Statement .extYorg :=
  OwnPattern.of_entry _ (by decide) (by unfold Pattern.Fits; decide)

theorem OwnPattern.extWidth : OwnPattern.Statement .extWidth :=
  OwnPattern.of_entry _ (by decide) (by unfold Pattern.Fits; decide)

theorem OwnPattern.extHeight : OwnPattern.Statement .extHeight :=
  OwnPattern.of_entry _ (by decide) (by unfold Pattern.Fits; decide)

theorem OwnPattern.extPixdepth : OwnPattern.Statement .extPixdepth :=
  OwnPattern.of_entry _ (by decide) (by unfold Pattern.Fits; decide)

theorem OwnPattern.extDesc : OwnPattern.Statement .extDesc :=
  OwnPattern.of_entry _ (by decide) (by unfold Pattern.Fits; decide)

theorem OwnPattern.cmapSummary : OwnPattern.Statement .cmapSummary :=
  OwnPattern.of_entry _ (by decide) (by unfold Pattern.Fits; decide)

theorem OwnPattern.cmapVerbose : OwnPattern.Statement .cmapVerbose :=
  OwnPattern.of_entry _ (by decide) (by unfold Pattern.Fits; decide)

theorem OwnPattern.itNone : OwnPattern.Statement .itNone :=
  OwnPattern.of_entry _ (by decide) (by unfold Pattern.Fits; decide)

theorem OwnPattern.itCmap : OwnPattern.Statement .itCmap :=
  OwnPattern.of_entry _ (by decide) (by unfold Pattern.Fits; decide)

theorem OwnPattern.itTrue : OwnPattern.Statement .itTrue :=
  OwnPattern.of_entry _ (by decide) (by unfold Pattern.Fits; decide)

theorem OwnPattern.itGray : OwnPattern.Statement .itGray :=
  OwnPattern.of_entry _ (by decide) (by unfold Pattern.Fits; decide)

theorem OwnPattern.itRleCmap : OwnPattern.Statement .itRleCmap :=
  OwnPattern.of_entry _ (by decide) (by unfold Pattern.Fits; decide)

theorem OwnPattern.itRleTrue : OwnPattern.Statement .itRleTrue :=
  OwnPattern.of_entry _ (by decide) (by unfold Pattern.Fits; decide)

theorem OwnPattern.itRleGray : OwnPattern.Statement .itRleGray :=
  OwnPattern.of_entry _ (by decide) (by unfold Pattern.Fits; decide)

theorem OwnPattern.itUnknown7 : OwnPattern.Statement .itUnknown7 :=
  OwnPattern.of_entry _ (by decide) (by unfold Pattern.Fits; decide)

theorem OwnPattern.itUnknown8To15 : OwnPattern.Statement .itUnknown8To15 :=
  OwnPattern.of_entry _ (by decide) (by unfold Pattern.Fits; decide)

theorem OwnPattern.itUnknown16To31 : OwnPattern.Statement .itUnknown16To31 :=
  OwnPattern.of_entry _ (by decide) (by unfold Pattern.Fits; decide)

theorem OwnPattern.itUnknown32To63 : OwnPattern.Statement .itUnknown32To63 :=
  OwnPattern.of_entry _ (by decide) (by unfold Pattern.Fits; decide)

theorem OwnPattern.itUnknown64To127 : OwnPattern.Statement .itUnknown64To127 :=
  OwnPattern.of_entry _ (by decide) (by unfold Pattern.Fits; decide)

theorem OwnPattern.itUnknown128To255 : OwnPattern.Statement .itUnknown128To255 :=
  OwnPattern.of_entry _ (by decide) (by unfold Pattern.Fits; decide)

theorem OwnPattern.typeKnown : OwnPattern.Statement .typeKnown :=
  OwnPattern.of_entry _ (by decide) (by unfold Pattern.Fits; decide)

theorem OwnPattern.typeName : OwnPattern.Statement .typeName :=
  OwnPattern.of_entry _ (by decide) (by unfold Pattern.Fits; decide)

theorem OwnPattern.descAlpha : OwnPattern.Statement .descAlpha :=
  OwnPattern.of_entry _ (by decide) (by unfold Pattern.Fits; decide)

theorem OwnPattern.descHCompat : OwnPattern.Statement .descHCompat :=
  OwnPattern.of_entry _ (by decide) (by unfold Pattern.Fits; decide)

theorem OwnPattern.descHCorr : OwnPattern.Statement .descHCorr :=
  OwnPattern.of_entry _ (by decide) (by unfold Pattern.Fits; decide)

theorem OwnPattern.descVCompat : OwnPattern.Statement .descVCompat :=
  OwnPattern.of_entry _ (by decide) (by unfold Pattern.Fits; decide)

theorem OwnPattern.descVCorr : OwnPattern.Statement .descVCorr :=
  OwnPattern.of_entry _ (by decide) (by unfold Pattern.Fits; decide)

theorem OwnPattern.descSel : OwnPattern.Statement .descSel :=
  OwnPattern.of_entry _ (by decide) (by unfold Pattern.Fits; decide)

end Sys2Proof.Laws
end

