-- ==== Sys2Proof/Laws/Rows.lean ====
section
/-! SUPPORT. Every row is one transaction: what it drives once the length check has passed, as a
function of the inputs, and the one equation for `exec` that proofs about all rows start from. -/

namespace Sys2Proof.Machine

open Sys2Proof

/-- What an image-type row drives. -/
def Signals.driveType (value mask : Byte) (idx : BitVec 3) (x : Inputs) (g : Signals) : Signals :=
  match x.typeCode with
  | none => { g with typeIdx := none, typeKnown := none }
  | some c =>
    if typeMatches value mask c then { g with typeIdx := some idx, typeKnown := some (typeKnownOf idx) }
    else g

/-- What each row drives. -/
def Signals.driveRow (i : Instr) (x : Inputs) (g : Signals) : Signals :=
  match i with
  | .decode => .ofFrame x
  | .lenchk => g
  | .le16 o => g.driveLe16 o (x.word o)
  | .extIdlen => { g with idLenField := x.byte 0 }
  | .extCmtype => { g with colorMapType := x.byte 1 }
  | .extImgtype => { g with imageTypeCode := x.byte 2 }
  | .extCmfirst => { g with firstEntryIndex := x.word 3 }
  | .extCmlen => { g with mapLength := x.word 5 }
  | .extCmesize => { g with mapEntrySize := x.byte 7 }
  | .extXorg => { g with xOrigin := x.word 8 }
  | .extYorg => { g with yOrigin := x.word 10 }
  | .extWidth => { g with width := x.word 12 }
  | .extHeight => { g with height := x.word 14 }
  | .extPixdepth => { g with pixelDepth := x.byte 16 }
  | .extDesc => { g with descriptorByte := x.byte 17 }
  | .cmapSummary => { g with cmapPresentSummary := x.cmType.map cmapSummaryOf }
  | .cmapVerbose => { g with cmapPresentVerbose := x.cmType.map cmapVerboseOf }
  | .itNone => g.driveType 0x00 0xFF 0 x
  | .itCmap => g.driveType 0x01 0xFF 1 x
  | .itTrue => g.driveType 0x02 0xFF 2 x
  | .itGray => g.driveType 0x03 0xFF 3 x
  | .itRleCmap => g.driveType 0x04 0xFF 4 x
  | .itRleTrue => g.driveType 0x05 0xFF 5 x
  | .itRleGray => g.driveType 0x06 0xFF 6 x
  | .itUnknown7 => g.driveType 0x07 0xFF 7 x
  | .itUnknown8To15 => g.driveType 0x08 0xF8 7 x
  | .itUnknown16To31 => g.driveType 0x10 0xF0 7 x
  | .itUnknown32To63 => g.driveType 0x20 0xE0 7 x
  | .itUnknown64To127 => g.driveType 0x40 0xC0 7 x
  | .itUnknown128To255 => g.driveType 0x80 0x80 7 x
  | .typeKnown => { g with typeKnown := x.typeCode.map fun c => typeKnownOf (imgTypeLut c) }
  | .typeName => { g with imageTypeName := x.typeCode.map fun c => typeNameOf (imgTypeLut c) }
  | .descAlpha => { g with descAlpha := x.desc.map descAlphaOf }
  | .descHCompat => { g with hCompat := x.desc.map hCompatOf }
  | .descHCorr => { g with hCorr := x.desc.map hCorrOf }
  | .descVCompat => { g with vCompat := x.desc.map vCompatOf }
  | .descVCorr => { g with vCorr := x.desc.map vCorrOf }
  | .descSel => { g with descH := x.desc.map (descHOf · x.cfgCorrected), descV := x.desc.map (descVOf · x.cfgCorrected) }

theorem imageTypeRow_eq (value mask : Byte) (idx : BitVec 3) (s : State) :
    imageTypeRow value mask idx s = transaction s (Signals.driveType value mask idx s.inputs) := rfl

/-- A well-formed row is one transaction. -/
theorem exec_eq_transaction (i : Instr) (s : State) (hi : i.wellFormed = true) :
    exec i s = .next (transaction s (Signals.driveRow i s.inputs)) := by
  cases i
  case le16 o => exact if_pos hi
  all_goals rfl

/-- What a well-formed row can do, by the length check's answer. -/
theorem exec_cases (i : Instr) (s : State) (hi : i.wellFormed = true) :
    (s.inputs.errOf = none ∧ exec i s = .next (s.withSig .undriven)) ∨
    (s.inputs.errOf = some true ∧ exec i s = .next (s.withSig .insufficientData)) ∨
    (s.inputs.errOf = some false ∧
      exec i s = .next (s.withSig (Signals.driveRow i s.inputs s.sig.accepted))) := by
  rw [exec_eq_transaction i s hi]
  rcases transaction_cases s (Signals.driveRow i s.inputs) with ⟨h, ht⟩ | ⟨h, ht⟩ | ⟨h, ht⟩
  · exact .inl ⟨h, by rw [ht]⟩
  · exact .inr (.inl ⟨h, by rw [ht]⟩)
  · exact .inr (.inr ⟨h, by rw [ht]⟩)

/-- A row that has a next state is well-formed. -/
theorem wellFormed_of_exec_next {i : Instr} {s t : State} (h : exec i s = .next t) :
    i.wellFormed = true := by
  cases i
  case le16 o =>
    by_contra hw
    have hc : wordOffsets.contains o = false := by simpa [Instr.wellFormed] using hw
    simp only [exec, execLe16, hc, Bool.false_eq_true, if_false] at h
    split at h <;> cases h
  all_goals rfl

/-- Whatever a row does, it leaves everything but the signals. -/
theorem exec_eq_withSig {i : Instr} {s t : State} (h : exec i s = .next t) : t = s.withSig t.sig := by
  have hi := wellFormed_of_exec_next h
  rcases exec_cases i s hi with ⟨-, he⟩ | ⟨-, he⟩ | ⟨-, he⟩ <;>
    · rw [he] at h
      cases h
      rfl

end Sys2Proof.Machine
end

