-- ==== Sys2Proof/Tests/Slice0.lean ====
section
/-! SUPPORT. The model's own tests, by `decide`, with expected values from spec/95_test_vectors.md or
the rule named, and for every statement with hypotheses a witness that meets them all. -/

namespace Sys2Proof.Machine.Test

open Sys2Proof Sys2Proof.Machine

set_option maxRecDepth 8000

/-! ## Helpers -/

/-- Frame F1 of spec/95_test_vectors.md, table 2.3. -/
def f1 : Frame :=
  #v[0x05, 0x00, 0x03, 0x34, 0x12, 0x78, 0x56, 0x0F, 0x01, 0x80, 0xFE, 0xFF, 0x10, 0x00, 0x20, 0x00,
    0x20, 0x18]

/-- The frame of scenario W1. -/
def w1 : Frame :=
  #v[0x00, 0x00, 0x02, 0x00, 0x00, 0x00, 0x00, 0x00, 0x00, 0x00, 0x00, 0x00, 0x64, 0x00, 0x40, 0x00,
    0x18, 0x00]

/-- Frame F1 with one byte replaced. -/
def f1With (k : Nat) (b : Byte) : Frame := f1.setIfInBounds k b

/-- The host presents a frame. -/
def on (f : Frame) (n : Nat) (corrected : Bool) : State :=
  State.reset.withInputs (presentedInput ⟨f, n, corrected⟩).inputs

/-- The signals of a next state. -/
def sigOf : Host.Outcome State Fault Refusal → Option Signals
  | .next s => some s.sig
  | .fault _ => none
  | .refused _ => none

/-- One field of a next state's signals. -/
def out {α : Type} (p : Signals → Option α) (o : Host.Outcome State Fault Refusal) : Option α :=
  (sigOf o).bind p

/-- The DECODE line for a frame. -/
def lineOf (f : Frame) (n : Nat) (corrected : Bool) : HostLine := .decode (presentedInput ⟨f, n, corrected⟩)

/-! ## WellFormed: ill-formed terms are refused -/

theorem test_le16_inside_field_ill_formed : (Instr.le16 4).wellFormed = false := by decide
theorem test_le16_spanning_fields_ill_formed : (Instr.le16 7).wellFormed = false := by decide
theorem test_le16_past_frame_ill_formed : (Instr.le16 17).wellFormed = false := by decide
theorem test_le16_offsets_well_formed :
    [3, 5, 8, 10, 12, 14].all (fun o => (Instr.le16 o).wellFormed) = true := by decide

/-! ## Decoding: words written from spec/30_encoding.md -/

/-- P1's encoding, `hdr_in` from bits [143:136] down. -/
theorem test_decode_frame :
    decodeTableWord 144 0x00_18_00_40_00_64_00_00_00_00_00_00_00_00_00_02_00_00 = some .decode := by
  decide
/-- LENCHK has no encoding (R101). -/
theorem test_decode_len : decodeTableWord 0 0 = some .lenchk := by decide
/-- Every row that reads the whole frame matches every frame (R76, R77). -/
theorem test_decode_frame_rows : matchingRows .frame144 0x18_20_00_20_00_10_FF_FE_80_01_0F_56_78_12_34_03_00_05 =
    [.decode, .le16 3, .le16 5, .le16 8, .le16 10, .le16 12, .le16 14, .extIdlen, .extCmtype,
     .extImgtype, .extCmfirst, .extCmlen, .extCmesize, .extXorg, .extYorg, .extWidth, .extHeight,
     .extPixdepth, .extDesc] := by decide
theorem test_decode_type0 : decodeTableWord 8 0b00000000 = some .itNone := by decide
theorem test_decode_type1 : decodeTableWord 8 0b00000001 = some .itCmap := by decide
theorem test_decode_type2 : decodeTableWord 8 0b00000010 = some .itTrue := by decide
theorem test_decode_type3 : decodeTableWord 8 0b00000011 = some .itGray := by decide
theorem test_decode_type4 : decodeTableWord 8 0b00000100 = some .itRleCmap := by decide
theorem test_decode_type5 : decodeTableWord 8 0b00000101 = some .itRleTrue := by decide
theorem test_decode_type6 : decodeTableWord 8 0b00000110 = some .itRleGray := by decide
theorem test_decode_type7 : decodeTableWord 8 0b00000111 = some .itUnknown7 := by decide
theorem test_decode_type8_15 : decodeTableWord 8 0b00001010 = some .itUnknown8To15 := by decide
theorem test_decode_type16_31 : decodeTableWord 8 0b00011111 = some .itUnknown16To31 := by decide
theorem test_decode_type32_63 : decodeTableWord 8 0b00100000 = some .itUnknown32To63 := by decide
theorem test_decode_type64_127 : decodeTableWord 8 0b01111111 = some .itUnknown64To127 := by decide
theorem test_decode_type128_255 : decodeTableWord 8 0b10000000 = some .itUnknown128To255 := by decide
theorem test_decode_cmt1 : matchingRows .cmt8 0b00000001 = [.cmapSummary, .extCmtype] := by decide
theorem test_decode_cmt0 : matchingRows .cmt8 0b00000000 = [.cmapVerbose, .extCmtype] := by decide
/-- CMT8 200 is accepted and passed through (R77, R104). -/
theorem test_decode_cmt200 : matchingRows .cmt8 0b11001000 = [.extCmtype] := by decide
/-- EXT_IMGTYPE reads every TYPE8 code, EXT_DESC every DESC8 byte (R105, R114). -/
theorem test_decode_type9_rows : matchingRows .type8 0b00001001 = [.itUnknown8To15, .extImgtype] := by decide
theorem test_decode_tidx7 : matchingRows .tidx3 0b111 = [.typeKnown, .typeName] := by decide
theorem test_decode_tidx2 : decodeTableWord 3 0b010 = some .typeName := by decide
/-- DESC8: bit 4 and bit 5 select the corrected rows' patterns (R72, opcode table). -/
theorem test_decode_desc30 : matchingRows .desc8 0b00110000 =
    [.descAlpha, .descHCompat, .descHCorr, .descVCompat, .descVCorr, .descSel, .extDesc] := by decide
theorem test_decode_desc10 : matchingRows .desc8 0b00010000 =
    [.descAlpha, .descHCompat, .descHCorr, .descVCompat, .descSel, .extDesc] := by decide
theorem test_decode_desc20 : matchingRows .desc8 0b00100000 =
    [.descAlpha, .descHCompat, .descVCompat, .descVCorr, .descSel, .extDesc] := by decide
theorem test_decode_too_wide : decodeTableWord 8 0x100 = none := by decide
theorem test_decode_too_short : decodeBytes .frame144 [0x00, 0x01] = .error .tooShort := by rfl
theorem test_decode_no_row : decodeBytes .tidx3 [0x08] = .error .noRow := by rfl

/-! ## The transaction -/

/-- Table 2.1: 17 raises, and nothing but `err` and `hdr_valid` carries a value (R31, R200). -/
theorem test_decode_len17 : sigOf (exec .decode (on f1 17 false)) =
    some { err := some true, hdrValid := some false } := by decide
theorem test_decode_len18_f1 : out Signals.decoded (exec .decode (on f1 18 true)) =
    some
      { header :=
          { idLenField := 5, colorMapType := 0, imageTypeCode := 3
            colorMap := { firstEntryIndex := 4660, mapLength := 22136, mapEntrySize := 15 }
            image :=
              { xOrigin := 32769, yOrigin := 65534, width := 16, height := 32, pixelDepth := 32
                descriptorByte := 0x18 } }
        cmapPresentSummary := false, cmapPresentVerbose := false, typeIdx := 3, typeKnown := true
        descAlpha := 8, descH := true, descV := false } := by decide
theorem test_lenchk_0 : out (·.err) (exec .lenchk (on f1 0 false)) = some true := by decide
theorem test_lenchk_19 : out (·.err) (exec .lenchk (on f1 19 false)) = some false := by decide
/-- Table 2.2: `FE FF` is 65534, not -2. -/
theorem test_le16_fffe : out (·.le16At10) (exec (.le16 10) (on f1 18 false)) = some 65534 := by decide
/-- Table 2.2: `00 01` is 256, so the higher offset is the high byte. -/
theorem test_le16_0001 : (le16 0x00 0x01).toNat = 256 := by decide

/-! ## Field extraction: table 2.3 -/

theorem test_ext_idlen : out (·.idLenField) (exec .extIdlen (on f1 18 false)) = some 5 := by decide
theorem test_ext_cmtype : out (·.colorMapType) (exec .extCmtype (on (f1With 1 0xC8) 18 false)) = some 200 := by
  decide
theorem test_ext_imgtype : out (·.imageTypeCode) (exec .extImgtype (on f1 18 false)) = some 3 := by decide
theorem test_ext_cmfirst : out (·.firstEntryIndex) (exec .extCmfirst (on f1 18 false)) = some 0x1234 := by
  decide
theorem test_ext_cmlen : out (·.mapLength) (exec .extCmlen (on f1 18 false)) = some 0x5678 := by decide
theorem test_ext_cmesize : out (·.mapEntrySize) (exec .extCmesize (on f1 18 false)) = some 15 := by decide
theorem test_ext_xorg : out (·.xOrigin) (exec .extXorg (on f1 18 false)) = some 0x8001 := by decide
theorem test_ext_yorg : out (·.yOrigin) (exec .extYorg (on f1 18 false)) = some 0xFFFE := by decide
theorem test_ext_width : out (·.width) (exec .extWidth (on f1 18 false)) = some 16 := by decide
theorem test_ext_height : out (·.height) (exec .extHeight (on f1 18 false)) = some 32 := by decide
theorem test_ext_pixdepth : out (·.pixelDepth) (exec .extPixdepth (on f1 18 false)) = some 32 := by decide
theorem test_ext_desc : out (·.descriptorByte) (exec .extDesc (on f1 18 false)) = some 0x18 := by decide

/-! ## Presence predicates: table 2.4 -/

theorem test_cmap_summary_200 :
    out (·.cmapPresentSummary) (exec .cmapSummary (on (f1With 1 200) 18 true)) = some false := by decide
theorem test_cmap_summary_1 :
    out (·.cmapPresentSummary) (exec .cmapSummary (on (f1With 1 1) 18 false)) = some true := by decide
theorem test_cmap_verbose_200 :
    out (·.cmapPresentVerbose) (exec .cmapVerbose (on (f1With 1 200) 18 true)) = some true := by decide
theorem test_cmap_verbose_0 :
    out (·.cmapPresentVerbose) (exec .cmapVerbose (on (f1With 1 0) 18 false)) = some false := by decide

/-! ## Image type: table 2.5 -/

theorem test_it_none : out (·.typeIdx) (exec .itNone (on (f1With 2 0) 18 false)) = some 0 := by decide
theorem test_it_cmap : out (·.typeIdx) (exec .itCmap (on (f1With 2 1) 18 false)) = some 1 := by decide
theorem test_it_true : out (·.typeIdx) (exec .itTrue (on (f1With 2 2) 18 false)) = some 2 := by decide
theorem test_it_gray : out (·.typeIdx) (exec .itGray (on (f1With 2 3) 18 false)) = some 3 := by decide
theorem test_it_rle_cmap : out (·.typeIdx) (exec .itRleCmap (on (f1With 2 4) 18 false)) = some 4 := by decide
theorem test_it_rle_true : out (·.typeIdx) (exec .itRleTrue (on (f1With 2 5) 18 false)) = some 5 := by decide
theorem test_it_rle_gray : out (·.typeIdx) (exec .itRleGray (on (f1With 2 6) 18 false)) = some 6 := by decide
theorem test_it_unknown_7 :
    out (·.typeKnown) (exec .itUnknown7 (on (f1With 2 7) 18 false)) = some false := by decide
theorem test_it_unknown_9 :
    out (·.typeIdx) (exec .itUnknown8To15 (on (f1With 2 9) 18 false)) = some 7 := by decide
theorem test_it_unknown_31 :
    out (·.typeIdx) (exec .itUnknown16To31 (on (f1With 2 31) 18 false)) = some 7 := by decide
theorem test_it_unknown_32 :
    out (·.typeIdx) (exec .itUnknown32To63 (on (f1With 2 32) 18 false)) = some 7 := by decide
theorem test_it_unknown_127 :
    out (·.typeIdx) (exec .itUnknown64To127 (on (f1With 2 127) 18 false)) = some 7 := by decide
theorem test_it_unknown_255 :
    out (·.typeIdx) (exec .itUnknown128To255 (on (f1With 2 255) 18 false)) = some 7 := by decide
/-- A row that the code does not select drives no class (R76). -/
theorem test_it_unselected : out (·.typeIdx) (exec .itNone (on f1 18 false)) = none := by decide
theorem test_type_known_9 : out (·.typeKnown) (exec .typeKnown (on (f1With 2 9) 18 false)) = some false := by
  decide
theorem test_type_known_0 : out (·.typeKnown) (exec .typeKnown (on (f1With 2 0) 18 false)) = some true := by
  decide
theorem test_type_name_2 :
    out (·.imageTypeName) (exec .typeName (on w1 18 false)) = some "Uncompressed true-color" := by decide
theorem test_type_name_9 :
    out (·.imageTypeName) (exec .typeName (on (f1With 2 9) 18 false)) = some "UNKNOWN !!" := by decide

/-! ## Descriptor: table 2.6 -/

theorem test_desc_alpha_cf :
    out (·.descAlpha) (exec .descAlpha (on (f1With 17 0xCF) 18 false)) = some 15 := by decide
theorem test_desc_h_compat :
    out (·.hCompat) (exec .descHCompat (on (f1With 17 0x11) 18 false)) = some false := by decide
theorem test_desc_h_corr : out (·.hCorr) (exec .descHCorr (on f1 18 false)) = some true := by decide
theorem test_desc_h_corr_ef :
    out (·.hCorr) (exec .descHCorr (on (f1With 17 0xEF) 18 false)) = some false := by decide
theorem test_desc_v_compat :
    out (·.vCompat) (exec .descVCompat (on (f1With 17 0x21) 18 false)) = some false := by decide
theorem test_desc_v_corr :
    out (·.vCorr) (exec .descVCorr (on (f1With 17 0x20) 18 false)) = some true := by decide
theorem test_desc_v_corr_df :
    out (·.vCorr) (exec .descVCorr (on (f1With 17 0xDF) 18 false)) = some false := by decide
/-- The rows 0x10 and 0x20 in corrected mode: `desc_h` is bit 4 and `desc_v` is bit 5. -/
theorem test_desc_sel_corrected :
    out (·.descH) (exec .descSel (on (f1With 17 0x10) 18 true)) = some true ∧
    out (·.descV) (exec .descSel (on (f1With 17 0x10) 18 true)) = some false := by decide
theorem test_desc_sel_compat :
    out (·.descH) (exec .descSel (on (f1With 17 0x30) 18 false)) = some false ∧
    out (·.descV) (exec .descSel (on (f1With 17 0x30) 18 false)) = some false := by decide

/-! ## Steps and the host -/

/-- P1's word placed for the fetch runs as DECODE: `width = 100`. -/
theorem test_step_fetch_word :
    out (·.width) (step (State.reset.withFetchWord 144
      0x00_18_00_40_00_64_00_00_00_00_00_00_00_00_00_02_00_00)) = some 100 := by decide
/-- P3's first line: the host records a read failure. -/
theorem test_step_short_line :
    (match step (State.reset.withPending [lineOf w1 17 false]) with
      | .next t => t.transcript
      | _ => []) = [.readFailure] := by decide
/-- Scenario W1: `FORMAT verbose=0`. -/
theorem test_format_w1 (l : VerboseLayout) (e : LineTerminator) :
    formatText l e (decodedOf (unpack w1) false) false =
      "Uncompressed true-color image, no colour map, 100x64" := by rfl
/-- Scenario W3: the map branch. -/
theorem test_format_w3 (l : VerboseLayout) (e : LineTerminator) :
    formatText l e (decodedOf (unpack ((w1.set 1 1).set 7 0x10)) false) false =
      "Uncompressed true-color image, 16bit map, 100x64" := by rfl
/-- Table 2.7: F1 in corrected mode. -/
theorem test_format_descriptor :
    descriptorText (decodedOf (unpack f1) true) =
      "Ordering: right to left, bottom to top, 8bit alpha channel" := by rfl
/-- R188 and table 2.7: tab-indented lines holding 4660, 22136 and 15bit. -/
theorem test_format_colour_map_block :
    colourMapBlock ⟨"", "", "", "", ": ", ": ", ": ", "", "", "", "", "", "", "", ""⟩
      (decodedOf (unpack f1) false) =
      ["\tFirst Entry: 4660", "\tMap Length: 22136", "\tEntry Size: 15bit"] := by rfl
/-- R181. -/
theorem test_dec_65535 : dec 65535 = "65535" := by rfl
theorem test_dec_0 : dec 0 = "0" := by rfl
/-- R207: the two fixed messages. -/
theorem test_messages : HostEvent.shortFile.message = some Config.shortFileMsg ∧
    HostEvent.readFailure.message = some Config.readFailMsg := ⟨rfl, rfl⟩
/-- R221: with no lane driven before any DECODE, a length alone defines no output. -/
theorem test_length_alone_defines_nothing :
    sigOf (exec .lenchk (State.reset.withInputs { State.reset.inputs with lenIn := some 18 })) = some {} := by
  decide
/-- A word placed for LENCHK presents a whole frame, of zeros. -/
theorem test_step_fetch_lenchk : out (·.err) (step (State.reset.withFetchWord 0 0)) = some false := by decide
/-- A code placed for its row is selected (table 2.5). -/
theorem test_step_fetch_type9 : out (·.typeIdx) (step (State.reset.withFetchWord 8 9)) = some 7 := by decide
/-- A DECODE line that omits a byte defines nothing, and the host samples no header (log 22). -/
theorem test_step_missing_byte :
    (match step (State.reset.withPending [.decode ⟨f1.toList.take 17, 18, false⟩]) with
      | .next t => (t.sig, t.transcript)
      | _ => ({}, [])) = ({}, [.undefinedHeader]) := by decide
/-- R225: inputs that change while they are sampled. -/
theorem test_moving_refused :
    step (State.reset.withPending [.decodeMoving (presentedInput ⟨f1, 18, false⟩)
      (presentedInput ⟨f1, 18, true⟩)]) = .refused .inputsChangedWhileSampling := rfl

/-! ## Witnesses: concrete states that meet each statement's hypotheses -/

/-- A frame presented with a length that passes the check. -/
theorem on_presents (f : Frame) (n : Nat) (c : Bool) (h : 18 ≤ n) : (on f n c).presents f n := by
  refine ⟨rfl, h, fun k hk => ?_⟩
  simp only [on, State.withInputs_inputs, Presented.inputs_byte, presentedInput]
  simp [hk]
  omega

/-- A buffer that is too short. -/
theorem on_presentsShort (f : Frame) (n : Nat) (c : Bool) (h : n < 18) : (on f n c).presentsShort n :=
  ⟨Option.some_ne_none _, rfl, h⟩

theorem witness_NothingDefinedBeforeLengthIsDriven :
    (Instr.le16 14).wellFormed = true ∧ State.reset.inputs.lenIn = none := by decide

theorem witness_StepKeepsInvariant : ∃ t,
    (State.reset.withPending [lineOf f1 18 false]).Inv ∧
      step (State.reset.withPending [lineOf f1 18 false]) = .next t :=
  ⟨_, ⟨rfl, by constructor <;> exact .inl rfl⟩, rfl⟩

theorem witness_StepRunsDecodedFrame : (on f1 18 false).pending = [] := rfl

theorem witness_DecodeLineRunsDecode :
    (State.reset.withPending [lineOf f1 18 true]).pending = .decode (presentedInput ⟨f1, 18, true⟩) :: [] :=
  rfl

theorem witness_RowLineRunsRow :
    (State.reset.withPending [.row (.le16 3)]).pending = .row (.le16 3) :: [] := rfl

/-- One word of each format the host's words are read in. -/
theorem witness_FetchWordRunsDecodedRow :
    (formatOfBits 144 = some .frame144 ∧ decodeTableWord 144 0 = some .decode) ∧
    (formatOfBits 8 = some .type8 ∧ decodeTableWord 8 0xFF = some .itUnknown128To255) ∧
    (formatOfBits 3 = some .tidx3 ∧ decodeTableWord 3 7 = some .typeKnown) ∧
    (formatOfBits 0 = some .len ∧ decodeTableWord 0 0 = some .lenchk) := by decide

/-- A step that leaves the inputs, and the two kinds of line that drive them. -/
theorem witness_OnlyDecodeLinesDriveInputs :
    (∃ t, step State.reset = .next t) ∧
    (∃ t, step (State.reset.withPending [lineOf f1 18 false]) = .next t) ∧
    (∃ t, step (State.reset.withPending [.decodeMoving (presentedInput ⟨f1, 18, false⟩)
      (presentedInput ⟨f1, 18, false⟩)]) = .next t) := ⟨⟨_, rfl⟩, ⟨_, rfl⟩, ⟨_, rfl⟩⟩

/-- Each of the three kinds of line that stop, stepped, and a state that does not stop. -/
theorem witness_StepStopsOnlyOnBadLines :
    step (State.reset.withPending [.format false]) = .refused .nothingToFormat ∧
    step (State.reset.withPending [.decodeMoving (presentedInput ⟨f1, 18, false⟩)
      (presentedInput ⟨f1, 18, true⟩)]) = .refused .inputsChangedWhileSampling ∧
    step (State.reset.withPending [.row (.le16 4)]) = .refused (.notAWordField 4) ∧
    step (State.reset.withPending [.row (.le16 17)]) = .fault (.noSuchOffset 17) ∧
    ¬ State.reset.stopsNow :=
  ⟨rfl, rfl, rfl, rfl, fun h => h⟩

/-- A row of each clause: its own bytes, and the first row they match. -/
theorem witness_DecodeOfEncodeIsTheRow :
    decodeBytes .type8 (encode .itUnknown8To15 0xFF ++ [0x2A]) = .ok (.itUnknown8To15, [0x2A]) ∧
      encode .itUnknown8To15 0xFF = [0x0F] ∧
      Instr.descVCorr.wellFormed = true ∧
      decodeBytes .desc8 (encode .descVCorr 0x01 ++ [0x2A]) = .ok (.descAlpha, [0x2A]) ∧
      encode .descVCorr 0x01 = [0x21] ∧
      Instr.extCmtype.wellFormed = true ∧ (⟨.cmt8, 0x00, 0x00⟩ : Pattern) ∈ Instr.extCmtype.patterns ∧
      decodeBytes .cmt8 (Pattern.encode ⟨.cmt8, 0x00, 0x00⟩ 0xC8 ++ [0x2A]) = .ok (.extCmtype, [0x2A]) :=
  ⟨rfl, rfl, rfl, rfl, rfl, rfl, by decide, rfl⟩

theorem witness_EncodeOfDecodeIsTheBytes :
    decodeBytes .cmt8 [0x01, 0x2A] = .ok (.cmapSummary, [0x2A]) ∧
      decodeBytes .cmt8 [0xC8, 0x2A] = .ok (.extCmtype, [0x2A]) := ⟨rfl, rfl⟩

/-- A frame with byte `k` replaced has that byte, and is presented. -/
theorem presents_f1With (k : Nat) (hk : k < 18) (b : Byte) (m : Bool) :
    (on (f1With k b) 18 m).presents (f1With k b) 18 ∧ (f1With k b)[k] = b :=
  ⟨on_presents _ _ _ (by decide), by simp [f1With]⟩

/-- The codes where one pattern ends and the next begins. -/
theorem witness_EveryCodeSelectsOneTypeRow : ∀ c ∈ [(0 : Byte), 6, 7, 8, 15, 16, 31, 32, 63, 64, 127, 128, 255],
    (on (f1With 2 c) 18 false).presents (f1With 2 c) 18 ∧ (f1With 2 c)[2] = c :=
  fun c _ => presents_f1With 2 (by decide) c false

theorem witness_HeaderRoundTrip :
    (on (pack (unpack f1)) 18 false).presents (pack (unpack f1)) 18 := on_presents _ _ _ (by decide)

/-- Serves every statement about a presented frame: the shortest length that passes, in both modes. -/
theorem witness_presents : (on f1 18 false).presents f1 18 ∧ (on f1 18 true).presents f1 18 ∧
    (on f1 1000 false).presents f1 1000 :=
  ⟨on_presents _ _ _ (by decide), on_presents _ _ _ (by decide), on_presents _ _ _ (by decide)⟩

theorem witness_FieldsAreBusSlices : (on f1 18 false).presents f1 18 := witness_presents.1

/-- Both clauses: 18 passes and 17 raises. -/
theorem witness_DecodeDrivesEveryOutput :
    (on f1 18 true).presents f1 18 ∧ (on f1 17 true).presentsShort 17 :=
  ⟨witness_presents.2.1, on_presentsShort _ _ _ (by decide)⟩

/-- On both sides of the length check. -/
theorem witness_DecodeRefinesReferenceFunction :
    (on f1 18 true).inputs = (presentedInput ⟨f1, 18, true⟩).inputs ∧
    (on f1 17 true).inputs = (presentedInput ⟨f1, 17, true⟩).inputs := ⟨rfl, rfl⟩

theorem witness_DecodePerformsEveryRow :
    (∀ i ∈ tableRows, i.wellFormed = true) ∧ ∀ i ∈ tableRows, i ≠ Instr.decode → i ∈ tableRows :=
  ⟨by decide, fun _ h _ => h⟩

/-- The longest and the shortest buffer that raises. -/
theorem witness_ShortBufferStopsEveryRow :
    Instr.typeName.wellFormed = true ∧ (on f1 17 false).presentsShort 17 ∧ (on f1 0 false).presentsShort 0 :=
  ⟨rfl, on_presentsShort _ _ _ (by decide), on_presentsShort _ _ _ (by decide)⟩

theorem witness_ShortBufferReadsNoLane :
    Instr.extDesc.wellFormed = true ∧ (on f1 17 false).presentsShort 17 :=
  ⟨rfl, on_presentsShort _ _ _ (by decide)⟩

/-- Both sides of the check. -/
theorem witness_LengthCheckRaisesBelow18 :
    (on f1 17 false).presentsShort 17 ∧ (on f1 18 false).presents f1 18 :=
  ⟨on_presentsShort _ _ _ (by decide), witness_presents.1⟩

theorem witness_EveryRowCompletes : (Instr.le16 3).wellFormed = true := by decide

theorem witness_RowsOnlyDriveSignals : ∃ t, exec (.le16 14) (on f1 18 false) = .next t := ⟨_, rfl⟩

theorem witness_EvaluationIsIdempotent : Instr.itGray.wellFormed = true := by decide

/-- F1 alone, and F1 with two later bytes. -/
theorem witness_TrailingBytesAreIgnored :
    (f1.toList).take 18 = (f1.toList ++ [0xAA, 0xBB]).take 18 ∧ 18 ≤ f1.toList.length := by decide

theorem witness_SaturatedLengthChangesNothing : 5 ≤ 5 ∧ saturatedLen 5 1000 = 31 ∧ saturatedLen 5 17 = 17 := by
  decide

theorem witness_TransactionsAreIndependent :
    (State.reset.withPending [lineOf f1 18 false]).pending = .decode (presentedInput ⟨f1, 18, false⟩) :: [] ∧
    ((on w1 17 true).withPending [lineOf f1 18 false, .format false]).pending =
      .decode (presentedInput ⟨f1, 18, false⟩) :: [.format false] := ⟨rfl, rfl⟩

/-- The first and the last lane, each alone not driven. -/
theorem witness_UndrivenLaneLeavesRecordUndefined : ∀ k ∈ [0, 17],
    let s := State.reset.withInputs
      { hdrIn := some ((Memory.ofBytes 0 f1.toList).filter fun c => c.1 ≠ k), lenIn := some 18
        cfgCorrected := false }
    Instr.extXorg.wellFormed = true ∧ s.inputs.lenIn = some 18 ∧ s.inputs.byte k = none := by decide

/-- The port not driven, with and without a length. -/
theorem witness_NothingDefinedBeforeFrameIsDriven :
    Instr.lenchk.wellFormed = true ∧ State.reset.inputs.hdrIn = none ∧
      (State.reset.withInputs { State.reset.inputs with lenIn := some 18 }).inputs.hdrIn = none := by decide

theorem witness_ByteFieldsExtracted : (on f1 18 false).presents f1 18 := witness_presents.1
theorem witness_WordFieldsExtracted : (on f1 18 false).presents f1 18 := witness_presents.1
theorem witness_Le16Assembles : (on f1 18 false).presents f1 18 := witness_presents.1

/-- Offsets on both sides of the edge of the frame. -/
theorem witness_Le16ElsewhereStops :
    4 ∉ [3, 5, 8, 10, 12, 14] ∧ 16 ∉ [3, 5, 8, 10, 12, 14] ∧ 17 ∉ [3, 5, 8, 10, 12, 14] := by decide

/-- Both clauses; the values where the predicates change. -/
theorem witness_PresencePredicates :
    (∀ c ∈ [(0 : Byte), 1, 2, 255], (on (f1With 1 c) 18 false).presents (f1With 1 c) 18 ∧
      (f1With 1 c)[1] = c) ∧
    (on f1 17 false).presentsShort 17 :=
  ⟨fun c _ => presents_f1With 1 (by decide) c false, on_presentsShort _ _ _ (by decide)⟩

/-- On both sides of 2. -/
theorem witness_PredicatesDisagreeFrom2 :
    (on (f1With 1 1) 18 false).presents (f1With 1 1) 18 ∧
    (on (f1With 1 2) 18 true).presents (f1With 1 2) 18 :=
  ⟨on_presents _ _ _ (by decide), on_presents _ _ _ (by decide)⟩

/-- Each clause's code. -/
theorem witness_KnownTypeRows : ∀ c ∈ [(0 : Byte), 1, 2, 3, 4, 5, 6],
    (on (f1With 2 c) 18 false).presents (f1With 2 c) 18 ∧ (f1With 2 c)[2] = c :=
  fun c _ => presents_f1With 2 (by decide) c false

/-- Each clause's first and last code. -/
theorem witness_UnknownTypeRows : ∀ c ∈ [(7 : Byte), 8, 15, 16, 31, 32, 63, 64, 127, 128, 255],
    (on (f1With 2 c) 18 false).presents (f1With 2 c) 18 ∧ (f1With 2 c)[2] = c :=
  fun c _ => presents_f1With 2 (by decide) c false

/-- Codes on both sides of the known ones, and the length that raises. -/
theorem witness_TypeNames :
    (∀ c ∈ [(0 : Byte), 6, 7, 255], (on (f1With 2 c) 18 false).presents (f1With 2 c) 18 ∧
      (f1With 2 c)[2] = c) ∧
    (on f1 17 false).presentsShort 17 :=
  ⟨fun c _ => presents_f1With 2 (by decide) c false, on_presentsShort _ _ _ (by decide)⟩

/-- Codes on both sides of the known ones, and the length that raises. -/
theorem witness_TypeKnownFlag :
    (∀ c ∈ [(0 : Byte), 6, 7, 255], (on (f1With 2 c) 18 false).presents (f1With 2 c) 18 ∧
      (f1With 2 c)[2] = c) ∧
    (on f1 17 false).presentsShort 17 :=
  ⟨fun c _ => presents_f1With 2 (by decide) c false, on_presentsShort _ _ _ (by decide)⟩

/-- Both clauses; each bit that a row reads. -/
theorem witness_DescriptorSlices :
    (∀ c ∈ [(0 : Byte), 0x0F, 0x10, 0x20, 0xFF], (on (f1With 17 c) 18 false).presents (f1With 17 c) 18 ∧
      (f1With 17 c)[17] = c) ∧
    (on f1 17 false).presentsShort 17 :=
  ⟨fun c _ => presents_f1With 17 (by decide) c false, on_presentsShort _ _ _ (by decide)⟩

/-- Both modes, and the length that raises. -/
theorem witness_StrapSelectsOrderingFlags :
    (∀ m ∈ [false, true], (on (f1With 17 0x30) 18 m).presents (f1With 17 0x30) 18 ∧
      (on (f1With 17 0x30) 18 m).inputs.cfgCorrected = m) ∧
    (on f1 17 false).presentsShort 17 :=
  ⟨fun m _ => ⟨(presents_f1With 17 (by decide) 0x30 m).1, rfl⟩, on_presentsShort _ _ _ (by decide)⟩

theorem witness_CompatibilityModeIsConstant :
    (on f1 18 false).presents f1 18 ∧ (on f1 18 false).inputs.cfgCorrected = false :=
  ⟨witness_presents.1, rfl⟩

/-- Descriptors `0x00` and `0xC0`, corrected mode. -/
theorem witness_ReservedDescriptorBitsFeedNothing :
    (on (f1With 17 0x00) 18 true).presents (f1With 17 0x00) 18 ∧
    (on (f1With 17 0xC0) 18 true).presents (f1With 17 0xC0) 18 ∧
    (on (f1With 17 0x00) 18 true).inputs.cfgCorrected = (on (f1With 17 0xC0) 18 true).inputs.cfgCorrected ∧
    (∀ (k : Nat) (h : k < 17), (f1With 17 0x00)[k] = (f1With 17 0xC0)[k]) ∧
    (f1With 17 0x00)[17].extractLsb' 0 6 = (f1With 17 0xC0)[17].extractLsb' 0 6 :=
  ⟨on_presents _ _ _ (by decide), on_presents _ _ _ (by decide), rfl, by decide, by decide⟩

theorem witness_StrapReachesOnlyOrderingFlags : Instr.descSel.wellFormed = true := by decide

/-- Both clauses: the strap changes, and nothing changes. -/
theorem witness_ChangingInputsAreRefused :
    (presentedInput ⟨f1, 18, false⟩).inputs ≠ (presentedInput ⟨f1, 18, true⟩).inputs ∧
    (State.reset.withPending [.decodeMoving (presentedInput ⟨f1, 18, false⟩)
      (presentedInput ⟨f1, 18, true⟩)]).pending =
      .decodeMoving (presentedInput ⟨f1, 18, false⟩) (presentedInput ⟨f1, 18, true⟩) :: [] ∧
    (presentedInput ⟨f1, 18, false⟩).inputs = (presentedInput ⟨f1, 18, false⟩).inputs :=
  ⟨by decide, rfl, rfl⟩

/-- P3's shape: an error, then a recovery. -/
theorem witness_SequenceMapsReferenceFunction :
    (State.reset.withPending [lineOf w1 17 false, lineOf f1 40 true]).pending =
      [(⟨w1, 17, false⟩ : Input), ⟨f1, 40, true⟩].map fun x => HostLine.decode (presentedInput x) := rfl

theorem witness_FailedDecodeIsReported :
    (State.reset.withPending [lineOf f1 17 false]).pending = .decode (presentedInput ⟨f1, 17, false⟩) :: [] ∧
      (presentedInput ⟨f1, 17, false⟩).len < 18 := ⟨rfl, by decide⟩

/-- Both clauses: nothing decoded, and a header sampled. -/
theorem witness_FormatLinePrints :
    latestDecoded (State.reset.withPending [.format false]).transcript = none ∧
    latestDecoded ((State.reset.record (.header (decodedOf (unpack f1) true))).withPending
      [.format true]).transcript = some (decodedOf (unpack f1) true) := ⟨rfl, rfl⟩

/-- Both clauses: 17 bytes, and 18 bytes with two later ones. -/
theorem witness_FileFlow :
    (f1.toList.take 17).length < 18 ∧
    f1.toList ++ [0xAA, 0xBB] = f1.toList ++ [(0xAA : Byte), 0xBB] ∧
    (State.reset.withPending [.file (f1.toList ++ [0xAA, 0xBB]) false true]).pending =
      .file (f1.toList ++ [0xAA, 0xBB]) false true :: [] := ⟨by decide, rfl, rfl⟩

/-- Every clause: records for both lines, and frames with `colorMapType` 0, 1, 2 and 255. -/
theorem witness_ShortLines :
    (decodedOf (unpack (f1With 1 1)) false).cmapPresentSummary = true ∧
    (decodedOf (unpack (f1With 1 2)) false).cmapPresentSummary = false ∧
    ∀ c ∈ [(0 : Byte), 1, 2, 255],
      (on (f1With 1 c) 18 true).presents (f1With 1 c) 18 ∧ (f1With 1 c)[1] = c :=
  ⟨rfl, rfl, fun c _ => presents_f1With 1 (by decide) c true⟩

theorem witness_FixedTextsAreAscii :
    let l : VerboseLayout :=
      ⟨"Id length: ", " bytes", "Type: ", "", ": ", ": ", ": ", "  ", ": ", ": ", ": ", ": ", ": ", "bit", ": "⟩
    let e : LineTerminator := ⟨"\n", true⟩
    ∀ x ∈ [l.idLenBefore, l.idLenAfter, l.typeBefore, l.typeAfter, l.firstEntrySep, l.mapLengthSep,
      l.entrySizeSep, l.imageIndent, l.xOriginSep, l.yOriginSep, l.widthSep, l.heightSep,
      l.pixelDepthSep, l.pixelDepthSuffix, l.descriptorSep, e.separator], Ascii x := by
  simp [Ascii]

theorem witness_DescriptorString :
    (on f1 18 false).presents f1 18 ∧ (on f1 18 false).inputs.cfgCorrected = false :=
  ⟨witness_presents.1, rfl⟩

end Sys2Proof.Machine.Test
end

section
/-! SUPPORT. What one evaluation and one host line do, said once: DECODE drives `Signals.evaluated` of the
inputs, and each line of the host's program has one equation for `step`. -/

namespace Sys2Proof.Machine

open Sys2Proof

/-! ## The evaluated signals, by the length check's answer -/

theorem Signals.evaluated_undriven {x : Inputs} (h : x.errOf = none) : Signals.evaluated x = .undriven := by
  simp [Signals.evaluated, h]

theorem Signals.evaluated_short {x : Inputs} (h : x.errOf = some true) :
    Signals.evaluated x = .insufficientData := by
  simp [Signals.evaluated, h]

theorem Signals.evaluated_accepted {x : Inputs} (h : x.errOf = some false) :
    Signals.evaluated x = .ofFrame x := by
  simp [Signals.evaluated, h]

/-- DECODE drives what R34 gives for the inputs, whatever the signals were before. -/
theorem exec_decode (s : State) : exec .decode s = .next (s.withSig (.evaluated s.inputs)) := by
  rcases exec_cases .decode s rfl with ⟨h, he⟩ | ⟨h, he⟩ | ⟨h, he⟩
  · rw [he, Signals.evaluated_undriven h]
  · rw [he, Signals.evaluated_short h]
  · rw [he, Signals.evaluated_accepted h]
    rfl

theorem runFetched_eq (s : State) : runFetched s = exec .decode s := by
  simp only [runFetched, fetch_eq_decode]

/-- A DECODE line drives its inputs, evaluates them, and the host samples the result. -/
theorem runDecodeLine_eq (p : Presented) (s : State) :
    runDecodeLine p s = .next (hostSample ((s.withInputs p.inputs).withSig (.evaluated p.inputs))) := by
  rw [runDecodeLine, runFetched_eq, exec_decode]
  rfl

/-! ## One step, by the host's next line -/

theorem step_nil {s : State} (h : s.pending = []) : step s = exec .decode s := by
  simp only [step, h, runFetched_eq]

theorem step_decode {s : State} {p : Presented} {rest : List HostLine} (h : s.pending = .decode p :: rest) :
    step s = runDecodeLine p (s.withPending rest) := by
  simp only [step, h]

theorem step_format {s : State} {v : Bool} {rest : List HostLine} (h : s.pending = .format v :: rest) :
    step s = hostFormat v (s.withPending rest) := by
  simp only [step, h]

theorem step_decodeMoving {s : State} {p q : Presented} {rest : List HostLine}
    (h : s.pending = .decodeMoving p q :: rest) :
    step s = if p.inputs = q.inputs then runDecodeLine p (s.withPending rest)
      else .refused .inputsChangedWhileSampling := by
  simp only [step, h]

theorem step_file {s : State} {c : List Byte} {m v : Bool} {rest : List HostLine}
    (h : s.pending = .file c m v :: rest) : step s = hostFile c m v (s.withPending rest) := by
  simp only [step, h]

theorem step_row {s : State} {i : Instr} {rest : List HostLine} (h : s.pending = .row i :: rest) :
    step s = exec i (s.withPending rest) := by
  simp only [step, h]

/-- A FORMAT line that does not stop prints one event. -/
theorem hostFormat_next {v : Bool} {s t : State} (h : hostFormat v s = .next t) : ∃ e, t = s.record e := by
  unfold hostFormat at h
  split at h
  · cases h
  · cases h
    exact ⟨_, rfl⟩

/-- A file line prints that the file is short, or queues a DECODE and a FORMAT line. -/
theorem hostFile_next {c : List Byte} {m v : Bool} {s t : State} (h : hostFile c m v s = .next t) :
    t = s.record .shortFile ∨
      t = s.withPending (.decode (filePresented c m) :: .format v :: s.pending) := by
  unfold hostFile at h
  split at h <;> cases h
  · exact .inl rfl
  · exact .inr rfl

/-! ## The strap and the length in the length check -/

/-- The strap is no operand of the length check. -/
theorem Inputs.errOf_strap (x : Inputs) (b : Bool) : ({ x with cfgCorrected := b } : Inputs).errOf = x.errOf := rfl

/-- Two lengths on the same side of 18 get the same answer from the length check. -/
theorem Inputs.errOf_lenIn_congr (x : Inputs) {m n : Nat} (h : m < 18 ↔ n < 18) :
    ({ x with lenIn := some m } : Inputs).errOf = ({ x with lenIn := some n } : Inputs).errOf := by
  have hs : lenShort m = lenShort n := Bool.eq_iff_iff.2 (by rw [lenShort_iff, lenShort_iff, h])
  obtain ⟨_ | lanes, _, _⟩ := x
  · rfl
  · simp only [Inputs.errOf, hs]
    rfl

/-- From 18 bytes on, one lane that is not driven leaves `err` undefined (log 5). -/
theorem Inputs.errOf_eq_none_of_lane {x : Inputs} {n k : Nat} (hn : x.lenIn = some n) (h18 : 18 ≤ n)
    (hk : k < 18) (hb : x.byte k = none) : x.errOf = none := by
  rcases h : x.errOf with _ | _ | _
  · rfl
  · have hd := (Inputs.errOf_eq_false.1 h).1 k hk
    simp [hb] at hd
  · obtain ⟨-, n', hn', hlt⟩ := Inputs.errOf_eq_true.1 h
    cases hn.symm.trans hn'
    omega

end Sys2Proof.Machine
end

section
/-! The invariant (R20, R34): a row's signals stay within what the inputs evaluate to, and the host's lines
only load inputs, queue lines and record events. -/

namespace Sys2Proof.Machine

open Sys2Proof

/-! ## Signals within the evaluated ones -/

theorem Signals.WithinOf.refl (g : Signals) : g.WithinOf g := by
  constructor <;> exact .inr rfl

/-- Signals without a value are within any. -/
theorem Signals.undriven_withinOf (e : Signals) : Signals.undriven.WithinOf e := by
  constructor <;> exact .inl rfl

section DriveRow

variable {x : Inputs} {g : Signals}

theorem Signals.accepted_withinOf (h : g.WithinOf (.ofFrame x)) : g.accepted.WithinOf (.ofFrame x) :=
  { h with err := .inr rfl, hdrValid := .inr rfl }

/-- LE16 at a well-formed offset drives the word read there. -/
theorem Signals.driveLe16_withinOf {o : Nat} (ho : (Instr.le16 o).wellFormed = true)
    (h : g.WithinOf (.ofFrame x)) : (g.driveLe16 o (x.word o)).WithinOf (.ofFrame x) := by
  have hmem : o ∈ [3, 5, 8, 10, 12, 14] := List.contains_iff_mem.1 ho
  simp only [List.mem_cons, List.not_mem_nil, or_false] at hmem
  rcases hmem with rfl | rfl | rfl | rfl | rfl | rfl
  · exact { h with le16At3 := .inr rfl }
  · exact { h with le16At5 := .inr rfl }
  · exact { h with le16At8 := .inr rfl }
  · exact { h with le16At10 := .inr rfl }
  · exact { h with le16At12 := .inr rfl }
  · exact { h with le16At14 := .inr rfl }

/-- An image-type row drives the class that the LUT gives: every code that its pattern selects has the row's class (R73, R140). -/
theorem Signals.driveType_withinOf {value mask : Byte} {idx : BitVec 3}
    (hlut : ∀ c, typeMatches value mask c = true → imgTypeLut c = idx) (h : g.WithinOf (.ofFrame x)) :
    (g.driveType value mask idx x).WithinOf (.ofFrame x) := by
  unfold Signals.driveType
  split
  next => exact { h with typeIdx := .inl rfl, typeKnown := .inl rfl }
  next c hc =>
    split
    next hm =>
      refine { h with typeIdx := .inr ?_, typeKnown := .inr ?_ } <;> simp [Signals.ofFrame, hc, hlut c hm]
    next => exact h

/-- A row drives its own signals with the values that DECODE gives them. -/
theorem Signals.driveRow_withinOf {i : Instr} (hi : i.wellFormed = true) (h : g.WithinOf (.ofFrame x)) :
    (Signals.driveRow i x g).WithinOf (.ofFrame x) :=
  match i with
  | .decode => .refl _
  | .lenchk => h
  | .le16 _ => driveLe16_withinOf hi h
  | .extIdlen => { h with idLenField := .inr rfl }
  | .extCmtype => { h with colorMapType := .inr rfl }
  | .extImgtype => { h with imageTypeCode := .inr rfl }
  | .extCmfirst => { h with firstEntryIndex := .inr rfl }
  | .extCmlen => { h with mapLength := .inr rfl }
  | .extCmesize => { h with mapEntrySize := .inr rfl }
  | .extXorg => { h with xOrigin := .inr rfl }
  | .extYorg => { h with yOrigin := .inr rfl }
  | .extWidth => { h with width := .inr rfl }
  | .extHeight => { h with height := .inr rfl }
  | .extPixdepth => { h with pixelDepth := .inr rfl }
  | .extDesc => { h with descriptorByte := .inr rfl }
  | .cmapSummary => { h with cmapPresentSummary := .inr rfl }
  | .cmapVerbose => { h with cmapPresentVerbose := .inr rfl }
  | .itNone => driveType_withinOf (by decide) h
  | .itCmap => driveType_withinOf (by decide) h
  | .itTrue => driveType_withinOf (by decide) h
  | .itGray => driveType_withinOf (by decide) h
  | .itRleCmap => driveType_withinOf (by decide) h
  | .itRleTrue => driveType_withinOf (by decide) h
  | .itRleGray => driveType_withinOf (by decide) h
  | .itUnknown7 => driveType_withinOf (by decide) h
  | .itUnknown8To15 => driveType_withinOf (by decide) h
  | .itUnknown16To31 => driveType_withinOf (by decide) h
  | .itUnknown32To63 => driveType_withinOf (by decide) h
  | .itUnknown64To127 => driveType_withinOf (by decide) h
  | .itUnknown128To255 => driveType_withinOf (by decide) h
  | .typeKnown => { h with typeKnown := .inr rfl }
  | .typeName => { h with imageTypeName := .inr rfl }
  | .descAlpha => { h with descAlpha := .inr rfl }
  | .descHCompat => { h with hCompat := .inr rfl }
  | .descHCorr => { h with hCorr := .inr rfl }
  | .descVCompat => { h with vCompat := .inr rfl }
  | .descVCorr => { h with vCorr := .inr rfl }
  | .descSel => { h with descH := .inr rfl, descV := .inr rfl }

end DriveRow

/-! ## What keeps the invariant -/

/-- The invariant speaks of the inputs and the signals only. -/
theorem State.Inv.congr {s t : State} (h : s.Inv) (hx : t.inputs = s.inputs) (hg : t.sig = s.sig) : t.Inv :=
  ⟨hx ▸ h.lanes, hx ▸ hg ▸ h.signals⟩

/-- Every row keeps the invariant. -/
theorem exec_keeps_inv {i : Instr} {s t : State} (h : s.Inv) (he : exec i s = .next t) : t.Inv := by
  have hi := wellFormed_of_exec_next he
  rcases exec_cases i s hi with ⟨herr, hr⟩ | ⟨herr, hr⟩ | ⟨herr, hr⟩ <;> cases hr.symm.trans he
  · exact ⟨h.lanes, Signals.undriven_withinOf _⟩
  · refine ⟨h.lanes, ?_⟩
    simp only [State.withSig_sig, State.withSig_inputs, Signals.evaluated_short herr]
    exact .refl _
  · have hsig := h.signals
    refine ⟨h.lanes, ?_⟩
    simp only [State.withSig_sig, State.withSig_inputs, Signals.evaluated_accepted herr] at hsig ⊢
    exact Signals.driveRow_withinOf hi (Signals.accepted_withinOf hsig)

/-- A DECODE line establishes the invariant, whatever held before it. -/
theorem runDecodeLine_inv {p : Presented} {s t : State} (h : runDecodeLine p s = .next t) : t.Inv := by
  rw [runDecodeLine_eq] at h
  obtain ⟨e, he⟩ := hostSample_eq ((s.withInputs p.inputs).withSig (.evaluated p.inputs))
  rw [he] at h
  cases h
  exact ⟨p.inputs_wf, .refl _⟩

/-- Settles O1: the lanes are empty, and no signal carries a value. -/
theorem resetMeetsInvariant : Obligations.ResetMeetsInvariant :=
  ⟨State.reset_wf, Signals.undriven_withinOf _⟩

/-- Settles O3, by the host's next line: a row and DECODE by what they drive, every other line because it
leaves inputs and signals alone. -/
theorem stepKeepsInvariant : Obligations.StepKeepsInvariant := by
  intro s t h hstep
  rcases hp : s.pending with _ | ⟨line, rest⟩
  · rw [step_nil hp] at hstep
    exact exec_keeps_inv h hstep
  cases line with
  | decode p =>
    rw [step_decode hp] at hstep
    exact runDecodeLine_inv hstep
  | format v =>
    rw [step_format hp] at hstep
    obtain ⟨e, rfl⟩ := hostFormat_next hstep
    exact h.congr rfl rfl
  | decodeMoving p q =>
    rw [step_decodeMoving hp] at hstep
    split at hstep
    · exact runDecodeLine_inv hstep
    · cases hstep
  | file c m v =>
    rw [step_file hp] at hstep
    rcases hostFile_next hstep with rfl | rfl <;> exact h.congr rfl rfl
  | row i =>
    rw [step_row hp] at hstep
    exact exec_keeps_inv (s := s.withPending rest) (h.congr rfl rfl) hstep

end Sys2Proof.Machine
end

section
/-! The bus and its slices (R24, R51, R71). -/

namespace Sys2Proof

/-- LE16 is the high byte before the low one. -/
theorem le16_eq_append (lo hi : Byte) : le16 lo hi = hi ++ lo := by
  apply BitVec.eq_of_getLsbD_eq
  intro i hi16
  rw [BitVec.getLsbD_append]
  simp only [le16, BitVec.getLsbD_or, BitVec.getLsbD_setWidth, BitVec.getLsbD_shiftLeft, hi16]
  by_cases h8 : i < 8
  · simp [h8]
  · simp [h8, BitVec.getLsbD_of_ge lo i (by omega), show i - 8 < 16 by omega]

/-- A 16-bit slice of a bus is LE16 of the two 8-bit slices in it. -/
theorem le16_slices {w : Nat} (v : BitVec w) (o : Nat) :
    le16 (v.extractLsb' o 8) (v.extractLsb' (o + 8) 8) = v.extractLsb' o 16 := by
  rw [le16_eq_append]
  exact BitVec.extractLsb'_append_extractLsb'_eq_extractLsb' rfl

namespace Machine

/-- A bit of bytes put side by side on a bus is the bit of some byte. -/
theorem getLsbD_bytes_on_bus (b : Nat → Byte) (ks : List Nat) {i : Nat} (hi : i < 144) :
    (ks.foldr (fun k w => w ||| ((b k).setWidth 144 <<< (8 * k))) (0 : BitVec 144)).getLsbD i =
      ks.any fun k => decide (8 * k ≤ i) && (b k).getLsbD (i - 8 * k) := by
  induction ks with
  | nil => simp
  | cons k ks ih =>
    rw [List.foldr_cons, BitVec.getLsbD_or, ih, List.any_cons, Bool.or_comm]
    congr 1
    by_cases h : 8 * k ≤ i
    · simp [hi, h, Nat.not_lt.2 h]
    · simp [h, Nat.lt_of_not_le h]

/-- Byte `k` is on `hdr_in[8k+7:8k]`; a lane that is not driven is taken as 0. -/
theorem Inputs.bus_slice (x : Inputs) {k : Nat} (hk : k < 18) :
    x.bus.extractLsb' (8 * k) 8 = (x.byte k).getD 0 := by
  apply BitVec.eq_of_getLsbD_eq
  intro j hj
  rw [BitVec.getLsbD_extractLsb', Inputs.bus,
    getLsbD_bytes_on_bus (fun k => (x.byte k).getD 0) _ (by omega), Bool.eq_iff_iff]
  simp only [hj, decide_true, Bool.true_and, List.any_eq_true, List.mem_range, Bool.and_eq_true,
    decide_eq_true_eq]
  constructor
  · rintro ⟨k', -, hle, hbit⟩
    have hlt := BitVec.lt_of_getLsbD hbit
    obtain rfl : k' = k := by omega
    simpa using hbit
  · intro hbit
    exact ⟨k, hk, by omega, by simpa using hbit⟩

/-- A presented frame is on the bus. -/
theorem State.presents.bus_slice {s : State} {f : Frame} {n k : Nat} (h : s.presents f n) (hk : k < 18) :
    s.inputs.bus.extractLsb' (8 * k) 8 = f[k] := by
  rw [Inputs.bus_slice _ hk, h.2.2 k hk]
  rfl

/-- A driven lane reads its slice of the bus. -/
theorem State.presents.byte_eq {s : State} {f : Frame} {n : Nat} (h : s.presents f n) (k : Nat)
    (hk : k < 18) : s.inputs.byte k = some (s.inputs.bus.extractLsb' (8 * k) 8) := by
  rw [h.bus_slice hk, h.2.2 k hk]

/-- Two driven lanes read the 16-bit slice of the bus. -/
theorem State.presents.word_eq {s : State} {f : Frame} {n : Nat} (h : s.presents f n) (o : Nat)
    (ho : o < 17) : s.inputs.word o = some (s.inputs.bus.extractLsb' (8 * o) 16) := by
  rw [Inputs.word_of_bytes (h.byte_eq o (by omega)) (h.byte_eq (o + 1) (by omega)), Nat.mul_add]
  exact congrArg some (le16_slices _ _)

/-- Settles O15: DECODE's fields are reads of the lanes, and the lanes are slices of the bus. -/
theorem fieldsAreBusSlices : Obligations.FieldsAreBusSlices := by
  intro s f n h
  refine ⟨fun k hk => h.bus_slice hk, _, exec_decode s, ?_⟩
  simp only [State.withSig_sig, Signals.evaluated_accepted h.errOf]
  exact ⟨h.byte_eq 0 (by decide), h.byte_eq 1 (by decide), h.byte_eq 2 (by decide),
    h.word_eq 3 (by decide), h.word_eq 5 (by decide), h.byte_eq 7 (by decide),
    h.word_eq 8 (by decide), h.word_eq 10 (by decide), h.word_eq 12 (by decide),
    h.word_eq 14 (by decide), h.byte_eq 16 (by decide), h.byte_eq 17 (by decide)⟩

end Machine

end Sys2Proof
end

section
/-! Refinement of R35's total function, by one transaction and by a sequence of them. -/

namespace Sys2Proof.Machine

open Sys2Proof

/-! ## An input record on the ports -/

/-- From 18 bytes on, an input record presents its frame. -/
theorem presentedInput_presents {x : Input} {s : State} (hs : s.inputs = (presentedInput x).inputs)
    (h : 18 ≤ x.len) : s.presents x.frame x.len := by
  refine ⟨by rw [hs]; rfl, h, fun k hk => ?_⟩
  rw [hs, Presented.inputs_byte, if_pos (show k < min (presentedInput x).len 18 from lt_min (hk.trans_le h) hk)]
  simp [presentedInput, hk]

/-- Below 18 bytes, an input record presents a short buffer. -/
theorem presentedInput_presentsShort {x : Input} {s : State} (hs : s.inputs = (presentedInput x).inputs)
    (h : x.len < 18) : s.presentsShort x.len :=
  ⟨by rw [hs]; exact Option.some_ne_none _, by rw [hs]; rfl, h⟩

theorem decodeInput_short {x : Input} (h : x.len < 18) : decodeInput x = .error .insufficientData :=
  if_pos ((lenShort_iff _).2 h)

theorem decodeInput_accepted {x : Input} (h : 18 ≤ x.len) :
    decodeInput x = .ok (decodedOf (unpack x.frame) x.corrected) := by
  simp [decodeInput, lenShort_eq_false h]

/-- With a presented frame the ports carry exactly the record of its fields (R29, R30, R100). -/
theorem State.presents.decoded {s : State} {f : Frame} {n : Nat} (h : s.presents f n) :
    (Signals.ofFrame s.inputs).decoded = some (decodedOf (unpack f) s.inputs.cfgCorrected) := by
  have hb := h.2.2
  have hw : ∀ (o : Nat) (ho : o < 17), s.inputs.word o = some (le16 f[o] f[o + 1]) := fun o ho =>
    Inputs.word_of_bytes (hb o (by omega)) (hb (o + 1) (by omega))
  simp [Signals.decoded, Signals.ofFrame, Inputs.cmType, Inputs.typeCode, Inputs.desc, hb, hw, decodedOf,
    unpack]

/-- What DECODE drives on an input record's ports: R35's function, on both of its sides. -/
theorem evaluated_presentedInput (x : Input) :
    (x.len < 18 ∧ Signals.evaluated (presentedInput x).inputs = .insufficientData) ∨
    (18 ≤ x.len ∧ (Signals.evaluated (presentedInput x).inputs).err = some false ∧
      (Signals.evaluated (presentedInput x).inputs).hdrValid = some true ∧
      (Signals.evaluated (presentedInput x).inputs).decoded =
        some (decodedOf (unpack x.frame) x.corrected)) := by
  have hs : (State.reset.withInputs (presentedInput x).inputs).inputs = (presentedInput x).inputs := rfl
  rcases Nat.lt_or_ge x.len 18 with h | h
  · exact .inl ⟨h, Signals.evaluated_short (presentedInput_presentsShort hs h).errOf⟩
  · have hp := presentedInput_presents hs h
    rw [Signals.evaluated_accepted (x := (presentedInput x).inputs) hp.errOf]
    exact .inr ⟨h, rfl, rfl, hp.decoded⟩

/-- Settles O17, by the two sides of the length check. -/
theorem decodeRefinesReferenceFunction : Obligations.DecodeRefinesReferenceFunction := by
  intro x s hs
  refine ⟨_, exec_decode s, rfl, ?_⟩
  rw [State.withSig_sig, hs]
  rcases evaluated_presentedInput x with ⟨h, he⟩ | ⟨h, herr, hvalid, hd⟩
  · rw [decodeInput_short h]
    exact he
  · rw [decodeInput_accepted h]
    exact ⟨herr, hvalid, hd⟩

/-! ## A sequence of transactions -/

/-- The host records R35's result for the record that was presented. -/
theorem hostSample_presentedInput (x : Input) (s : State) :
    hostSample (s.withSig (.evaluated (presentedInput x).inputs)) =
      (s.withSig (.evaluated (presentedInput x).inputs)).record (resultEvent (decodeInput x)) := by
  rcases evaluated_presentedInput x with ⟨h, he⟩ | ⟨h, herr, -, hd⟩
  · rw [decodeInput_short h, he]
    rfl
  · rw [decodeInput_accepted h, hostSample]
    simp only [State.withSig_sig, herr, hd, resultEvent]

/-- The line of an input record takes one step, which records R35's result and nothing else. -/
theorem step_decode_input {s : State} {x : Input} {rest : List HostLine}
    (h : s.pending = .decode (presentedInput x) :: rest) :
    ∃ t, step s = .next t ∧ t.pending = rest ∧
      t.transcript = resultEvent (decodeInput x) :: s.transcript := by
  rw [step_decode h, runDecodeLine_eq, hostSample_presentedInput]
  exact ⟨_, rfl, rfl, rfl⟩

/-- A run starts with one step. -/
theorem run_succ_of_step {M : Host.Core} {s t : M.State} (h : M.step s = .next t) (k : Nat) :
    M.run (k + 1) s = M.run k t := by
  simp only [Host.Core.run, h]

/-- Settles O45, by induction on the list of input records: the head takes one step, and the rest runs
from the state it leaves. -/
theorem sequenceMapsReferenceFunction : Obligations.SequenceMapsReferenceFunction := by
  intro xs
  induction xs with
  | nil => exact fun s hs => ⟨s, rfl, hs, rfl⟩
  | cons x xs ih =>
    intro s hs
    obtain ⟨t, hstep, hpend, htr⟩ := step_decode_input hs
    obtain ⟨u, hrun, hdone, hall⟩ := ih t hpend
    refine ⟨u, (run_succ_of_step (M := Sys2Proof.core) hstep _).trans hrun, hdone, ?_⟩
    simp [hall, htr]

end Sys2Proof.Machine
end

section
/-! What the evaluation does not depend on: the exact length (R25), and for all signals but two the strap
(R26); and that it defines nothing before the frame is driven (R221). -/

namespace Sys2Proof.Machine

open Sys2Proof

/-! ## The length port -/

/-- The length reaches the signals only through the length check. -/
theorem Signals.evaluated_lenIn_congr (x : Inputs) {m n : Nat} (h : m < 18 ↔ n < 18) :
    Signals.evaluated { x with lenIn := some m } = Signals.evaluated { x with lenIn := some n } := by
  unfold Signals.evaluated
  rw [Inputs.errOf_lenIn_congr x h]
  rfl

/-- A port of at least 5 bits holds the constant 18, so saturation does not move a length across it. -/
theorem saturatedLen_lt_18 {lenW : Nat} (n : Nat) (h : 5 ≤ lenW) : n < 18 ↔ saturatedLen lenW n < 18 := by
  have hpow : 2 ^ 5 ≤ 2 ^ lenW := Nat.pow_le_pow_right (by decide) h
  unfold saturatedLen
  omega

/-- Settles O26: the saturated length fits the port and is on the same side of 18. -/
theorem saturatedLengthChangesNothing : Obligations.SaturatedLengthChangesNothing := by
  intro lenW n s h
  have hpos : 0 < 2 ^ lenW := Nat.two_pow_pos lenW
  exact ⟨lt_of_le_of_lt (Nat.min_le_right _ _) (Nat.sub_one_lt_of_lt hpos), _, _, exec_decode _, exec_decode _,
    Signals.evaluated_lenIn_congr s.inputs (saturatedLen_lt_18 n h)⟩

/-! ## A lane that is not driven -/

/-- Settles O28: the length check has no answer, so every row leaves every signal undefined. -/
theorem undrivenLaneLeavesRecordUndefined : Obligations.UndrivenLaneLeavesRecordUndefined := by
  intro i s n k hi hn h18 hk hb
  refine ⟨?_, rfl⟩
  rw [exec_eq_transaction i s hi, transaction_undriven _ (Inputs.errOf_eq_none_of_lane hn h18 hk hb)]
  rfl

/-! ## The strap -/

/-- DECODE and DESC_SEL are the only rows that read the strap. -/
theorem Signals.driveRow_strap {i : Instr} (hd : i ≠ .decode) (hs : i ≠ .descSel) (x : Inputs) (b : Bool)
    (g : Signals) : Signals.driveRow i { x with cfgCorrected := b } g = Signals.driveRow i x g := by
  cases i
  case decode => exact absurd rfl hd
  case descSel => exact absurd rfl hs
  all_goals rfl

/-- Those two rows drive `desc_h` and `desc_v` by it, and nothing else. -/
theorem Signals.driveRow_strap_flags (i : Instr) (x : Inputs) (b : Bool) (g : Signals) :
    Signals.driveRow i { x with cfgCorrected := b } g =
      { Signals.driveRow i x g with
        descH := (Signals.driveRow i { x with cfgCorrected := b } g).descH
        descV := (Signals.driveRow i { x with cfgCorrected := b } g).descV } := by
  by_cases hd : i = .decode
  · subst hd
    rfl
  by_cases hs : i = .descSel
  · subst hs
    rfl
  rw [Signals.driveRow_strap hd hs]

/-- Settles O43: the length check does not read the strap, and of the rows' signals only the ordering flags do. -/
theorem strapReachesOnlyOrderingFlags : Obligations.StrapReachesOnlyOrderingFlags := by
  intro i s b hi
  generalize hu : ({ s with inputs := { s.inputs with cfgCorrected := b } } : State) = u
  have hx : u.inputs = { s.inputs with cfgCorrected := b } := by rw [← hu]
  have hg : u.sig = s.sig := by rw [← hu]
  have herr : u.inputs.errOf = s.inputs.errOf := by rw [hx, Inputs.errOf_strap]
  refine ⟨_, _, exec_eq_transaction i s hi, exec_eq_transaction i u hi, ?_⟩
  rcases h : s.inputs.errOf with _ | _ | _
  · rw [transaction_undriven _ h, transaction_undriven _ (herr.trans h)]
    exact ⟨rfl, fun _ _ => rfl⟩
  · rw [transaction_accepted _ h, transaction_accepted _ (herr.trans h), State.withSig_sig, State.withSig_sig,
      hx, hg]
    exact ⟨Signals.driveRow_strap_flags .., fun hd hs => Signals.driveRow_strap hd hs ..⟩
  · rw [transaction_short _ h, transaction_short _ (herr.trans h)]
    exact ⟨rfl, fun _ _ => rfl⟩

end Sys2Proof.Machine
end

section
/-! The input ports and the rows (R54, R55, R58): only the host drives an input port, and a row evaluated
again drives the same signals. -/

namespace Sys2Proof.Machine

open Sys2Proof

/-! ## Who drives the input ports -/

/-- A DECODE line leaves on the input ports what it presents. -/
theorem runDecodeLine_inputs {p : Presented} {s t : State} (h : runDecodeLine p s = .next t) :
    t.inputs = p.inputs := by
  rw [runDecodeLine_eq] at h
  obtain ⟨e, he⟩ := hostSample_eq ((s.withInputs p.inputs).withSig (.evaluated p.inputs))
  rw [he] at h
  cases h
  rfl

/-- A row leaves the input ports as they are (R54). -/
theorem exec_inputs {i : Instr} {s t : State} (h : exec i s = .next t) : t.inputs = s.inputs := by
  rw [exec_eq_withSig h, State.withSig_inputs]

/-- Settles O23: a row replaces the signals and nothing else. -/
theorem rowsOnlyDriveSignals : Obligations.RowsOnlyDriveSignals := by
  intro i s t h
  rw [exec_eq_withSig h]
  exact ⟨rfl, rfl, fun _ => rfl, rfl, rfl⟩

/-- Settles O8, by the host's next line: a row and a step with no line keep the inputs, a DECODE line drives
its own, and FORMAT and file lines only print and queue. -/
theorem onlyDecodeLinesDriveInputs : Obligations.OnlyDecodeLinesDriveInputs := by
  intro s t hstep
  rcases hp : s.pending with _ | ⟨line, rest⟩
  · rw [step_nil hp] at hstep
    exact .inl (exec_inputs hstep)
  cases line with
  | decode p =>
    rw [step_decode hp] at hstep
    exact .inr (.inl ⟨p, rest, rfl, runDecodeLine_inputs hstep⟩)
  | format v =>
    rw [step_format hp] at hstep
    obtain ⟨e, rfl⟩ := hostFormat_next hstep
    exact .inl rfl
  | decodeMoving p q =>
    rw [step_decodeMoving hp] at hstep
    split at hstep
    next hpq => exact .inr (.inr ⟨p, q, rest, rfl, hpq, runDecodeLine_inputs hstep⟩)
    next => cases hstep
  | file c m v =>
    rw [step_file hp] at hstep
    rcases hostFile_next hstep with rfl | rfl <;> exact .inl rfl
  | row i =>
    rw [step_row hp] at hstep
    exact .inl (exec_inputs (s := s.withPending rest) hstep)

/-- Settles O44: both clauses are branches of the line's one equation. -/
theorem changingInputsAreRefused : Obligations.ChangingInputsAreRefused := by
  intro s p q rest hp
  rw [step_decodeMoving hp]
  refine ⟨fun hne => if_neg hne, fun heq => ?_⟩
  rw [if_pos heq, step_decode (State.withPending_pending s _)]
  rfl

/-! ## A row evaluated again -/

/-- LE16 drives the same internal signal again. -/
theorem Signals.driveLe16_idem (g : Signals) (o : Nat) (v : Option Word) :
    (g.driveLe16 o v).driveLe16 o v = g.driveLe16 o v := by
  unfold Signals.driveLe16
  split <;> simp only [*]

/-- LE16 leaves `err` and `hdr_valid`. -/
theorem Signals.driveLe16_accepted (g : Signals) (o : Nat) (v : Option Word) :
    (g.driveLe16 o v).accepted = g.accepted.driveLe16 o v := by
  unfold Signals.driveLe16
  split <;> rfl

/-- An image-type row is selected again, or not selected again. -/
theorem Signals.driveType_idem (value mask : Byte) (idx : BitVec 3) (x : Inputs) (g : Signals) :
    (g.driveType value mask idx x).driveType value mask idx x = g.driveType value mask idx x := by
  unfold Signals.driveType
  rcases x.typeCode with _ | c
  · rfl
  · by_cases hm : typeMatches value mask c = true <;> simp [hm]

/-- An image-type row leaves `err` and `hdr_valid`. -/
theorem Signals.driveType_accepted (value mask : Byte) (idx : BitVec 3) (x : Inputs) (g : Signals) :
    (g.driveType value mask idx x).accepted = g.accepted.driveType value mask idx x := by
  unfold Signals.driveType
  rcases x.typeCode with _ | c
  · rfl
  · by_cases hm : typeMatches value mask c = true <;> simp [hm, Signals.accepted]

/-- What a row drives is a function of the inputs, so driving it again changes nothing. -/
theorem Signals.driveRow_idem (i : Instr) (x : Inputs) (g : Signals) :
    Signals.driveRow i x (Signals.driveRow i x g) = Signals.driveRow i x g := by
  cases i
  case le16 o => exact driveLe16_idem g o _
  case itNone | itCmap | itTrue | itGray | itRleCmap | itRleTrue | itRleGray | itUnknown7 | itUnknown8To15
    | itUnknown16To31 | itUnknown32To63 | itUnknown64To127 | itUnknown128To255 => exact driveType_idem ..
  all_goals rfl

/-- A row leaves `err` and `hdr_valid` as the length check drove them. -/
theorem Signals.driveRow_accepted (i : Instr) (x : Inputs) (g : Signals) :
    (Signals.driveRow i x g).accepted = Signals.driveRow i x g.accepted := by
  cases i
  case le16 o => exact driveLe16_accepted g o _
  case itNone | itCmap | itTrue | itGray | itRleCmap | itRleTrue | itRleGray | itUnknown7 | itUnknown8To15
    | itUnknown16To31 | itUnknown32To63 | itUnknown64To127 | itUnknown128To255 => exact driveType_accepted ..
  all_goals rfl

/-- Within one accepted transaction, driving a row after the same row changes nothing. -/
theorem Signals.driveRow_again (i : Instr) (x : Inputs) (g : Signals) :
    Signals.driveRow i x (Signals.driveRow i x g.accepted).accepted = Signals.driveRow i x g.accepted := by
  rw [driveRow_accepted, accepted_accepted, driveRow_idem]

/-- A transaction run again gives its state again, when what it drives does. -/
theorem transaction_idem {s : State} {d : Signals → Signals}
    (hd : d (d s.sig.accepted).accepted = d s.sig.accepted) :
    transaction (transaction s d) d = transaction s d := by
  rcases transaction_cases s d with ⟨h, ht⟩ | ⟨h, ht⟩ | ⟨h, ht⟩ <;> rw [ht]
  · rw [transaction_undriven (s := s.withSig .undriven) d h, State.withSig_withSig]
  · rw [transaction_short (s := s.withSig .insufficientData) d h, State.withSig_withSig]
  · rw [transaction_accepted (s := s.withSig (d s.sig.accepted)) d h, State.withSig_withSig, State.withSig_sig, hd]

/-- Settles O24: both evaluations are the same transaction on the same inputs. -/
theorem evaluationIsIdempotent : Obligations.EvaluationIsIdempotent := by
  intro i s hi
  have hx : (transaction s (Signals.driveRow i s.inputs)).inputs = s.inputs :=
    exec_inputs (exec_eq_transaction i s hi)
  refine ⟨_, exec_eq_transaction i s hi, ?_⟩
  rw [exec_eq_transaction i _ hi, hx, transaction_idem (Signals.driveRow_again i s.inputs s.sig)]

end Sys2Proof.Machine
end

section
/-! The encodings (R70, R73): words and their bytes, what the decoder reads, and its round trips with the
encoder. -/

namespace Sys2Proof

/-! ## Words and their bytes -/

@[simp] theorem wordBytes_length (n w : Nat) : (wordBytes n w).length = n := by
  simp [wordBytes]

theorem wordBytes_getElem? {n k : Nat} (w : Nat) (hk : k < n) :
    (wordBytes n w)[k]? = some (BitVec.ofNat 8 (w >>> (8 * k))) := by
  simp [wordBytes, hk]

/-- The lowest byte comes first, and the word above it gives the others (D3). -/
theorem wordBytes_succ (n w : Nat) :
    wordBytes (n + 1) w = BitVec.ofNat 8 w :: wordBytes n (w / 256) := by
  simp only [wordBytes, List.range_succ_eq_map, List.map_cons, List.map_map]
  congr 1
  refine List.map_congr_left fun k _ => ?_
  rw [Function.comp_apply, Nat.succ_eq_add_one, Nat.mul_succ, Nat.add_comm, Nat.shiftRight_add,
    Nat.shiftRight_eq_div_pow w 8]

/-- A word that fits is read back from its bytes. -/
theorem bytesWord_wordBytes (n : Nat) {w : Nat} (hw : w < 2 ^ (8 * n)) : bytesWord (wordBytes n w) = w := by
  induction n generalizing w with
  | zero =>
    obtain rfl : w = 0 := by simpa using hw
    rfl
  | succ n ih =>
    have hdiv : w / 256 < 2 ^ (8 * n) := by
      rw [show 8 * (n + 1) = 8 * n + 8 by ring, pow_add] at hw
      exact Nat.div_lt_of_lt_mul (by rwa [mul_comm] at hw)
    rw [wordBytes_succ, bytesWord, ih hdiv, BitVec.toNat_ofNat]
    exact Nat.mod_add_div w 256

/-- Bytes are given back by the word they stand for. -/
theorem wordBytes_bytesWord (bs : List Byte) : wordBytes bs.length (bytesWord bs) = bs := by
  induction bs with
  | nil => rfl
  | cons b bs ih =>
    have hb : b.toNat < 256 := b.isLt
    have hlo : BitVec.ofNat 8 (b.toNat + 256 * bytesWord bs) = b := by
      apply BitVec.eq_of_toNat_eq
      rw [BitVec.toNat_ofNat]
      omega
    have hhi : (b.toNat + 256 * bytesWord bs) / 256 = bytesWord bs := by omega
    rw [List.length_cons, bytesWord, wordBytes_succ, hlo, hhi, ih]

/-- A word of a format fits the format's bytes. -/
theorem Format.lt_of_lt_bits {f : Format} {w : Nat} (h : w < 2 ^ f.bits) : w < 2 ^ (8 * f.bytes) := by
  have hle : f.bits ≤ 8 * f.bytes := by cases f <;> decide
  exact h.trans_le (Nat.pow_le_pow_right (by decide) hle)

/-! ## What the decoder reads -/

theorem decodeWord_eq_some {f : Format} {w : Nat} {i : Instr} :
    decodeWord f w = some i ↔ w < 2 ^ f.bits ∧ (matchingRows f w).head? = some i := by
  unfold decodeWord
  split <;> simp [*]

/-- A buffer is decoded when it holds the format's bytes, and their word is decoded. -/
theorem decodeBytes_eq_ok {f : Format} {buf rest : List Byte} {i : Instr} :
    decodeBytes f buf = .ok (i, rest) ↔
      f.bytes ≤ buf.length ∧ decodeWord f (bytesWord (buf.take f.bytes)) = some i ∧ buf.drop f.bytes = rest := by
  unfold decodeBytes
  split
  next h => simp [Nat.not_le.2 h]
  next h =>
    cases decodeWord f (bytesWord (buf.take f.bytes)) <;> simp [Nat.not_lt.1 h]

/-- The row that a word decodes to matches the word. -/
theorem mem_matchingRows_of_decodeWord {f : Format} {w : Nat} {i : Instr} (h : decodeWord f w = some i) :
    i ∈ matchingRows f w := List.mem_of_mem_head? (decodeWord_eq_some.1 h).2

theorem wellFormed_of_mem_tableRows : ∀ i ∈ tableRows, i.wellFormed = true := by decide

theorem wellFormed_of_decodeWord {f : Format} {w : Nat} {i : Instr} (h : decodeWord f w = some i) :
    i.wellFormed = true :=
  wellFormed_of_mem_tableRows i (mem_matchingRows.1 (mem_matchingRows_of_decodeWord h)).1

/-- A host's word decodes to a row only when some word of its format does. -/
theorem wellFormed_of_decodeTableWord {nbits w : Nat} {i : Instr} (h : decodeTableWord nbits w = some i) :
    i.wellFormed = true := by
  unfold decodeTableWord at h
  split at h
  · cases h
  split at h
  · split at h
    next j rest hok =>
      cases h
      exact wellFormed_of_decodeWord (decodeBytes_eq_ok.1 hok).2.1
    · cases h
  · cases h

/-! ## Encoding what was decoded -/

/-- A matching word is the pattern's word at its own bits: under the mask they are the match, elsewhere open. -/
theorem Pattern.word_self {p : Pattern} {w : Nat} (hm : p.matchesWord w = true) (hw : w < 2 ^ p.format.bits) :
    p.word w = w := by
  have hv : w &&& p.mask = p.value := by simpa [Pattern.matchesWord] using hm
  rw [Pattern.word, Nat.mod_eq_of_lt hw, ← hv]
  apply Nat.eq_of_testBit_eq
  intro k
  simp only [Nat.testBit_or, Nat.testBit_and, Nat.testBit_xor, Nat.testBit_two_pow_sub_one]
  rcases hbit : w.testBit k with _ | _
  · simp
  · have hk : k < p.format.bits := by
      by_contra hge
      rw [Nat.testBit_lt_two_pow (hw.trans_le (Nat.pow_le_pow_right (by decide) (Nat.not_lt.1 hge)))] at hbit
      cases hbit
    simp [hk]

/-- Settles O12: the row decoded has a pattern that the word read matches, so the word is that pattern's at
its own bits, and the bytes read are the word's. -/
theorem encodeOfDecodeIsTheBytes : Obligations.EncodeOfDecodeIsTheBytes := by
  intro f buf rest i h
  obtain ⟨hlen, hw, rfl⟩ := decodeBytes_eq_ok.1 h
  obtain ⟨-, p, hp, rfl, hm⟩ := mem_matchingRows.1 (mem_matchingRows_of_decodeWord hw)
  refine ⟨wellFormed_of_decodeWord hw, p, hp, rfl, bytesWord (buf.take p.format.bytes), ?_⟩
  have hself := wordBytes_bytesWord (buf.take p.format.bytes)
  rw [List.length_take_of_le hlen] at hself
  rw [Pattern.encode, Pattern.word_self hm (decodeWord_eq_some.1 hw).1, hself, List.take_append_drop]

/-! ## Decoding what was encoded -/

/-- Every well-formed row is among the rows that its own words match. -/
theorem ownPattern (i : Instr) : Laws.OwnPattern.Statement i :=
  match i with
  | .decode => Laws.OwnPattern.decode
  | .lenchk => Laws.OwnPattern.lenchk
  | .le16 o => Laws.OwnPattern.le16 o
  | .extIdlen => Laws.OwnPattern.extIdlen
  | .extCmtype => Laws.OwnPattern.extCmtype
  | .extImgtype => Laws.OwnPattern.extImgtype
  | .extCmfirst => Laws.OwnPattern.extCmfirst
  | .extCmlen => Laws.OwnPattern.extCmlen
  | .extCmesize => Laws.OwnPattern.extCmesize
  | .extXorg => Laws.OwnPattern.extXorg
  | .extYorg => Laws.OwnPattern.extYorg
  | .extWidth => Laws.OwnPattern.extWidth
  | .extHeight => Laws.OwnPattern.extHeight
  | .extPixdepth => Laws.OwnPattern.extPixdepth
  | .extDesc => Laws.OwnPattern.extDesc
  | .cmapSummary => Laws.OwnPattern.cmapSummary
  | .cmapVerbose => Laws.OwnPattern.cmapVerbose
  | .itNone => Laws.OwnPattern.itNone
  | .itCmap => Laws.OwnPattern.itCmap
  | .itTrue => Laws.OwnPattern.itTrue
  | .itGray => Laws.OwnPattern.itGray
  | .itRleCmap => Laws.OwnPattern.itRleCmap
  | .itRleTrue => Laws.OwnPattern.itRleTrue
  | .itRleGray => Laws.OwnPattern.itRleGray
  | .itUnknown7 => Laws.OwnPattern.itUnknown7
  | .itUnknown8To15 => Laws.OwnPattern.itUnknown8To15
  | .itUnknown16To31 => Laws.OwnPattern.itUnknown16To31
  | .itUnknown32To63 => Laws.OwnPattern.itUnknown32To63
  | .itUnknown64To127 => Laws.OwnPattern.itUnknown64To127
  | .itUnknown128To255 => Laws.OwnPattern.itUnknown128To255
  | .typeKnown => Laws.OwnPattern.typeKnown
  | .typeName => Laws.OwnPattern.typeName
  | .descAlpha => Laws.OwnPattern.descAlpha
  | .descHCompat => Laws.OwnPattern.descHCompat
  | .descHCorr => Laws.OwnPattern.descHCorr
  | .descVCompat => Laws.OwnPattern.descVCompat
  | .descVCorr => Laws.OwnPattern.descVCorr
  | .descSel => Laws.OwnPattern.descSel

/-- An encoding's bytes stand for the pattern's word. -/
theorem Pattern.bytesWord_encode {p : Pattern} {free : Nat} (h : p.word free < 2 ^ p.format.bits) :
    bytesWord (p.encode free) = p.word free :=
  bytesWord_wordBytes _ (Format.lt_of_lt_bits h)

/-- An encoding decodes to the first row that its word matches, and what follows is left over. -/
theorem decodeBytes_encode {p : Pattern} {free : Nat} {j : Instr} (rest : List Byte)
    (h : p.word free < 2 ^ p.format.bits) (hj : (matchingRows p.format (p.word free)).head? = some j) :
    decodeBytes p.format (p.encode free ++ rest) = .ok (j, rest) := by
  have hlen : (p.encode free).length = p.format.bytes := wordBytes_length _ _
  refine decodeBytes_eq_ok.2 ⟨by simp [hlen], ?_, List.drop_left' hlen⟩
  rw [List.take_left' hlen, Pattern.bytesWord_encode h]
  exact decodeWord_eq_some.2 ⟨h, hj⟩

/-- No word matches both patterns: their formats differ, or a bit that both masks fix. -/
def Pattern.apart (p q : Pattern) : Bool := p.format != q.format || p.value &&& q.mask != q.value &&& p.mask

theorem Pattern.selects_eq_false_of_apart {p q : Pattern} {f : Format} {w : Nat} (h : p.apart q = true)
    (hq : q.selects f w = true) : p.selects f w = false := by
  by_contra hne
  obtain ⟨hpf, hp⟩ := Pattern.selects_iff.1 (Bool.not_eq_false _ ▸ hne)
  obtain ⟨hqf, hq⟩ := Pattern.selects_iff.1 hq
  simp only [Pattern.matchesWord, beq_iff_eq] at hp hq
  simp [Pattern.apart, hpf, hqf, ← hp, ← hq, Nat.and_right_comm] at h

/-- The first element that meets a test, when none before it does. -/
theorem find?_eq_some_of_takeWhile {α : Type} [DecidableEq α] {l : List α} {a : α} {t : α → Bool} (ha : a ∈ l)
    (hta : t a = true) (hbefore : ∀ b ∈ l.takeWhile (· ≠ a), t b = false) : l.find? t = some a := by
  induction l with
  | nil => cases ha
  | cons b l ih =>
    by_cases hb : b = a
    · subst hb
      simp [hta]
    · simp only [List.takeWhile_cons, decide_eq_true hb, if_true, List.forall_mem_cons, ne_eq] at hbefore
      rw [List.find?_cons, hbefore.1]
      exact ih (List.mem_of_ne_of_mem (Ne.symm hb) ha) hbefore.2

/-- A row that a word selects, and whose pattern is apart from every earlier row's, is the first match. -/
theorem head?_matchingRows {i : Instr} {f : Format} {w : Nat} (hi : i ∈ tableRows)
    (hapart : ∀ j ∈ tableRows.takeWhile (· ≠ i), j.pattern.apart i.pattern = true)
    (hsel : i.pattern.selects f w = true) : (matchingRows f w).head? = some i := by
  have hfind : (tableMatches f w).head? = some i := by
    rw [tableMatches, List.head?_filter]
    exact find?_eq_some_of_takeWhile hi hsel fun j hj => Pattern.selects_eq_false_of_apart (hapart j hj) hsel
  rw [matchingRows, List.head?_append, hfind]
  rfl

/-- The rows whose pattern no earlier row of their format shares (log 10). -/
def firstRows : List Instr :=
  [.decode, .lenchk, .cmapSummary, .cmapVerbose,
   .itNone, .itCmap, .itTrue, .itGray, .itRleCmap, .itRleTrue, .itRleGray, .itUnknown7,
   .itUnknown8To15, .itUnknown16To31, .itUnknown32To63, .itUnknown64To127,
   .itUnknown128To255, .typeKnown, .descAlpha]

theorem firstRows_apart : ∀ i ∈ firstRows, i ∈ tableRows ∧
    ∀ j ∈ tableRows.takeWhile (· ≠ i), j.pattern.apart i.pattern = true := by decide

/-- Such a row decodes from its own bytes. -/
theorem decodeBytes_encode_firstRow {i : Instr} (hi : i ∈ firstRows) (free : Nat) (rest : List Byte) :
    decodeBytes i.pattern.format (encode i free ++ rest) = .ok (i, rest) := by
  obtain ⟨hmem, hapart⟩ := firstRows_apart i hi
  obtain ⟨hmatch, hlt, -⟩ :=
    (ownPattern i (wellFormed_of_mem_tableRows i hmem)).2 i.pattern (List.mem_cons_self ..) free
  exact decodeBytes_encode rest hlt (head?_matchingRows hmem hapart (Pattern.selects_iff.2 ⟨rfl, hmatch⟩))

/-- Settles O11: every encoding decodes to the first row that its word matches; that is the row itself where
no earlier pattern shares a word with its own, and some row in any case, because the row matches. -/
theorem decodeOfEncodeIsTheRow : Obligations.DecodeOfEncodeIsTheRow := by
  refine ⟨fun i free rest hi => decodeBytes_encode_firstRow hi free rest, rfl, ?_⟩
  intro i p free rest hwf hp
  obtain ⟨-, hlt, hmem⟩ := (ownPattern i hwf).2 p hp free
  obtain ⟨j, hj⟩ : ∃ j, (matchingRows p.format (p.word free)).head? = some j :=
    Option.isSome_iff_exists.1 (List.isSome_head?.2 (List.ne_nil_of_mem hmem))
  rw [Pattern.bytesWord_encode hlt]
  exact ⟨j, decodeBytes_encode rest hlt hj, hmem, hj⟩

end Sys2Proof
end

section
/-! What a step runs: the frame, a DECODE line, a row line, a word placed for the fetch, and a FORMAT line
(R70, R76, R79). -/

namespace Sys2Proof.Machine

open Sys2Proof

/-- Settles O4: every frame fetches DECODE. -/
theorem stepRunsDecodedFrame : Obligations.StepRunsDecodedFrame :=
  fun s h => ⟨fetch_eq_decode s, step_nil h⟩

/-- Settles O5: a DECODE line is one evaluation and one sample. -/
theorem decodeLineRunsDecode : Obligations.DecodeLineRunsDecode := by
  intro s p rest h
  refine ⟨_, exec_decode _, ?_⟩
  rw [step_decode h, runDecodeLine_eq, State.withInputs_inputs]

/-- Settles O6. -/
theorem rowLineRunsRow : Obligations.RowLineRunsRow := fun _ _ _ h => step_row h

/-- Settles O10: the decoder is evaluated on each word. -/
theorem sampleWordsDecode : Obligations.SampleWordsDecode := by
  unfold Obligations.SampleWordsDecode
  decide

theorem hostFormat_of_none {s : State} (v : Bool) (h : latestDecoded s.transcript = none) :
    hostFormat v s = .refused .nothingToFormat := by
  simp only [hostFormat, h]

theorem hostFormat_of_some {s : State} {d : Decoded} (v : Bool) (h : latestDecoded s.transcript = some d) :
    hostFormat v s =
      .next (s.record (.text (formatText Config.verboseLayout Config.lineTerminator d v))) := by
  simp only [hostFormat, h]

/-- Settles O47, by whether the transcript holds a successful DECODE. -/
theorem formatLinePrints : Obligations.FormatLinePrints := by
  intro s v rest hp
  refine ⟨fun _ => rfl, fun hnone => ?_, fun d hd => ?_⟩
  · rw [step_format hp]
    exact hostFormat_of_none v hnone
  · rw [step_format hp]
    exact hostFormat_of_some (s := s.withPending rest) v hd

/-! ## A word placed for the fetch -/

theorem State.withFetchWord_eq {s : State} {nbits w : Nat} {f : Format} {i : Instr}
    (hf : formatOfBits nbits = some f) (hi : decodeTableWord nbits w = some i) :
    s.withFetchWord nbits w = (s.withInputs (s.inputs.present f w)).withPending (.row i :: s.pending) := by
  simp only [State.withFetchWord, hf, hi]

/-- A lane reads the byte listed for it; a port that is not driven lists none. -/
theorem Inputs.byte_eq_read (x : Inputs) (k : Nat) : x.byte k = (x.hdrIn.getD []).read k := by
  unfold Inputs.byte
  cases x.hdrIn <;> rfl

theorem Inputs.present_byte (x : Inputs) (f : Format) (w k : Nat) :
    (x.present f w).byte k = ((x.hdrIn.getD []).present f w).read k := rfl

/-- A frame word is on all 18 lanes. -/
theorem Inputs.present_frame_byte (x : Inputs) (w : Nat) {k : Nat} (hk : k < 18) :
    (x.present .frame144 w).byte k = some (BitVec.ofNat 8 (w >>> (8 * k))) := by
  rw [Inputs.present_byte, Memory.present, Memory.read_ofBytes, if_pos (Nat.zero_le k)]
  exact wordBytes_getElem? w hk

/-- A filled frame carries what the lanes carried, and zeros elsewhere. -/
theorem Inputs.read_filled (x : Inputs) {k : Nat} (hk : k < 18) :
    (x.hdrIn.getD []).filled.read k = some ((x.byte k).getD 0) := by
  rw [Memory.read_filled, if_pos hk, Inputs.byte_eq_read]

/-- A code word is on lane 2, and so is the code that stands for a class (log 31); the other lanes are filled. -/
theorem Inputs.present_code_byte (x : Inputs) {f : Format} (hf : f = .type8 ∨ f = .tidx3) (w : Nat) {k : Nat}
    (hk : k < 18) :
    (x.present f w).byte k = if k = 2 then some (BitVec.ofNat 8 w) else some ((x.byte k).getD 0) := by
  rw [← Inputs.read_filled x hk, ← Memory.read_drive]
  rcases hf with rfl | rfl <;> rfl

/-- Settles O7: the queued row line runs the decoded row on the inputs that present the word. -/
theorem fetchWordRunsDecodedRow : Obligations.FetchWordRunsDecodedRow := by
  intro s nbits w f i hf hi
  have hstep : step (s.withFetchWord nbits w) = exec i (s.withInputs (s.inputs.present f w)) := by
    rw [State.withFetchWord_eq hf hi, step_row (State.withPending_pending ..)]
    rfl
  refine ⟨_, _, hstep, exec_eq_transaction i _ (wellFormed_of_decodeTableWord hi), rfl, ?_, ?_, ?_,
    rfl, rfl, rfl, rfl⟩
  · rintro rfl k hk
    exact s.inputs.present_frame_byte w hk
  · intro hcode
    refine ⟨?_, fun k hk hk2 => ?_⟩
    · rw [State.withInputs_inputs, s.inputs.present_code_byte hcode w (by decide), if_pos rfl]
    · rw [State.withInputs_inputs, s.inputs.present_code_byte hcode w hk, if_neg hk2]
  · rintro rfl k hk
    exact s.inputs.read_filled hk

end Sys2Proof.Machine
end

section
/-! The image-type rows (R73): every code selects one of them, which drives its class. -/

namespace Sys2Proof.Machine

open Sys2Proof

/-! ## One row for every code -/

/-- "No two rows match the same code, and every code from 0 to 255 matches exactly one row" (R73). -/
theorem tableMatches_type8 (c : Byte) : ∃ i, tableMatches .type8 c.toNat = [i] := by
  rw [← List.length_eq_one_iff]
  revert c
  decide

/-- Beside R73's rows, EXT_IMGTYPE alone reads a code, and it reads every one (R105). -/
theorem matchingRows_type8 (w : Nat) : matchingRows .type8 w = tableMatches .type8 w ++ [.extImgtype] := by
  rw [matchingRows]
  congr 1
  simp [tableRows, Instr.fieldPattern, Pattern.selects, Pattern.matchesWord]

theorem wellFormed_of_type8 {i : Instr} (hi : i.pattern.format = .type8) : i.wellFormed = true := by
  cases i
  case le16 o => cases hi
  all_goals rfl

/-- The rows of R73 that match a word are those whose pattern is of format TYPE8 and matches it. -/
theorem mem_tableMatches_type8 {i : Instr} {w : Nat} :
    i ∈ tableMatches .type8 w ↔ i.pattern.format = .type8 ∧ i.pattern.matchesWord w = true := by
  rw [tableMatches, List.mem_filter, Pattern.selects_iff, and_iff_right_iff_imp]
  exact fun ⟨hf, _⟩ => (ownPattern i (wellFormed_of_type8 hf)).1

/-! ## The class -/

/-- The class of a code, in numbers (R140). -/
theorem imgTypeLut_eq (c : Byte) : imgTypeLut c = if c.toNat ≤ 6 then BitVec.ofNat 3 c.toNat else 7 := by
  revert c
  decide

/-- Exactly codes 0 to 6 are known (R150). -/
theorem typeKnownOf_imgTypeLut (c : Byte) : typeKnownOf (imgTypeLut c) = decide (c.toNat ≤ 6) := by
  revert c
  decide

/-! ## What a row of R73 drives -/

/-- A pattern's test on the bits of a code is its match of the code. -/
theorem typeMatches_eq_matchesWord {f : Format} {v m : Nat} (hv : v < 256) (hm : m < 256) (c : Byte) :
    typeMatches (BitVec.ofNat 8 v) (BitVec.ofNat 8 m) c = Pattern.matchesWord ⟨f, v, m⟩ c.toNat := by
  rw [Bool.eq_iff_iff, typeMatches, Pattern.matchesWord, beq_iff_eq, beq_iff_eq, ← BitVec.toNat_inj,
    BitVec.toNat_and, BitVec.toNat_ofNat, BitVec.toNat_ofNat, Nat.mod_eq_of_lt hv, Nat.mod_eq_of_lt hm]

/-- A row of R73's table tests the code by its pattern, and every code that the pattern matches has the row's
class (R140 to R148). -/
theorem exists_driveType {i : Instr} (hi : i.pattern.format = .type8) : ∃ value mask idx,
    Signals.driveRow i = (fun x g => g.driveType value mask idx x) ∧
    (∀ c : Byte, typeMatches value mask c = i.pattern.matchesWord c.toNat) ∧
    ∀ c, typeMatches value mask c = true → imgTypeLut c = idx :=
  match i with
  | .itNone | .itCmap | .itTrue | .itGray | .itRleCmap | .itRleTrue | .itRleGray | .itUnknown7 | .itUnknown8To15
  | .itUnknown16To31 | .itUnknown32To63 | .itUnknown64To127 | .itUnknown128To255 =>
    ⟨_, _, _, rfl, typeMatches_eq_matchesWord (by decide) (by decide), by decide⟩

section TypeRow

variable {i : Instr} {x : Inputs} {c : Byte}

/-- Without a code a row of R73's table leaves the class without a value (log 11). -/
theorem Signals.driveRow_type_noCode (hi : i.pattern.format = .type8) (hc : x.typeCode = none) (g : Signals) :
    Signals.driveRow i x g = { g with typeIdx := none, typeKnown := none } := by
  obtain ⟨value, mask, idx, hdrive, -⟩ := exists_driveType hi
  simp only [hdrive, Signals.driveType, hc]

/-- The row that the code selects drives the code's class and whether it is known. -/
theorem Signals.driveRow_selected (hi : i.pattern.format = .type8) (hc : x.typeCode = some c)
    (hm : i.pattern.matchesWord c.toNat = true) (g : Signals) :
    Signals.driveRow i x g =
      { g with typeIdx := some (imgTypeLut c), typeKnown := some (typeKnownOf (imgTypeLut c)) } := by
  obtain ⟨value, mask, idx, hdrive, htest, hlut⟩ := exists_driveType hi
  have ht := (htest c).trans hm
  simp only [hdrive, Signals.driveType, hc, ht, if_true, hlut c ht]

/-- A row that the code does not select drives nothing of its own (log 11). -/
theorem Signals.driveRow_unselected (hi : i.pattern.format = .type8) (hc : x.typeCode = some c)
    (hm : i.pattern.matchesWord c.toNat = false) (g : Signals) : Signals.driveRow i x g = g := by
  obtain ⟨value, mask, idx, hdrive, htest, -⟩ := exists_driveType hi
  simp [hdrive, Signals.driveType, hc, (htest c).trans hm]

end TypeRow

/-- On a presented frame a well-formed row drives its signals. -/
theorem State.presents.exec_eq {s : State} {f : Frame} {n : Nat} (h : s.presents f n) {i : Instr}
    (hi : i.wellFormed = true) :
    exec i s = .next (s.withSig (Signals.driveRow i s.inputs s.sig.accepted)) := by
  rw [exec_eq_transaction i s hi, transaction_accepted _ h.errOf]

/-- Settles O13: one row of the table matches the code, it drives the code's class, and every other row of
the table is not selected. -/
theorem everyCodeSelectsOneTypeRow : Obligations.EveryCodeSelectsOneTypeRow := by
  refine ⟨rfl, fun s f n h => ?_⟩
  have hc : s.inputs.typeCode = some f[2] := h.2.2 2 (by decide)
  obtain ⟨i, hone⟩ := tableMatches_type8 f[2]
  obtain ⟨hi, hm⟩ := mem_tableMatches_type8.1 (hone ▸ List.mem_singleton_self i)
  refine ⟨i, hone, by rw [matchingRows_type8, hone]; rfl, ?_, fun j hj hne => ?_⟩
  · rw [h.exec_eq (wellFormed_of_type8 hi), Signals.driveRow_selected hi hc hm, typeKnownOf_imgTypeLut,
      imgTypeLut_eq]
  · have hm' : j.pattern.matchesWord f[2].toNat = false := Bool.eq_false_iff.2 fun hsel =>
      hne (List.mem_singleton.1 (hone ▸ mem_tableMatches_type8.2 ⟨hj, hsel⟩))
    rw [h.exec_eq (wellFormed_of_type8 hj), Signals.driveRow_unselected hj hc hm']

end Sys2Proof.Machine
end

section
/-! DECODE is all the rows (R76, R100): each row drives its own signals with the values that DECODE gives them
and keeps every other signal, so the order and the repetitions of the rows do not matter. -/

namespace Sys2Proof.Machine

open Sys2Proof

/-! ## Signals driven towards the values of a record -/

/-- A signal keeps its value `a`, or carries the value `b`. -/
abbrev KeptOr {α : Type} (a b a' : Option α) : Prop := a' = a ∨ a' = b

/-- Every signal of `g'` is as in `g` or as in `e`. -/
structure Signals.DrivenTo (g e g' : Signals) : Prop where
  err : KeptOr g.err e.err g'.err
  hdrValid : KeptOr g.hdrValid e.hdrValid g'.hdrValid
  idLenField : KeptOr g.idLenField e.idLenField g'.idLenField
  colorMapType : KeptOr g.colorMapType e.colorMapType g'.colorMapType
  imageTypeCode : KeptOr g.imageTypeCode e.imageTypeCode g'.imageTypeCode
  firstEntryIndex : KeptOr g.firstEntryIndex e.firstEntryIndex g'.firstEntryIndex
  mapLength : KeptOr g.mapLength e.mapLength g'.mapLength
  mapEntrySize : KeptOr g.mapEntrySize e.mapEntrySize g'.mapEntrySize
  xOrigin : KeptOr g.xOrigin e.xOrigin g'.xOrigin
  yOrigin : KeptOr g.yOrigin e.yOrigin g'.yOrigin
  width : KeptOr g.width e.width g'.width
  height : KeptOr g.height e.height g'.height
  pixelDepth : KeptOr g.pixelDepth e.pixelDepth g'.pixelDepth
  descriptorByte : KeptOr g.descriptorByte e.descriptorByte g'.descriptorByte
  cmapPresentSummary : KeptOr g.cmapPresentSummary e.cmapPresentSummary g'.cmapPresentSummary
  cmapPresentVerbose : KeptOr g.cmapPresentVerbose e.cmapPresentVerbose g'.cmapPresentVerbose
  typeIdx : KeptOr g.typeIdx e.typeIdx g'.typeIdx
  typeKnown : KeptOr g.typeKnown e.typeKnown g'.typeKnown
  descAlpha : KeptOr g.descAlpha e.descAlpha g'.descAlpha
  descH : KeptOr g.descH e.descH g'.descH
  descV : KeptOr g.descV e.descV g'.descV
  le16At3 : KeptOr g.le16At3 e.le16At3 g'.le16At3
  le16At5 : KeptOr g.le16At5 e.le16At5 g'.le16At5
  le16At8 : KeptOr g.le16At8 e.le16At8 g'.le16At8
  le16At10 : KeptOr g.le16At10 e.le16At10 g'.le16At10
  le16At12 : KeptOr g.le16At12 e.le16At12 g'.le16At12
  le16At14 : KeptOr g.le16At14 e.le16At14 g'.le16At14
  imageTypeName : KeptOr g.imageTypeName e.imageTypeName g'.imageTypeName
  hCompat : KeptOr g.hCompat e.hCompat g'.hCompat
  hCorr : KeptOr g.hCorr e.hCorr g'.hCorr
  vCompat : KeptOr g.vCompat e.vCompat g'.vCompat
  vCorr : KeptOr g.vCorr e.vCorr g'.vCorr

theorem Signals.DrivenTo.refl (g e : Signals) : g.DrivenTo e g := by
  constructor <;> exact .inl rfl

theorem Signals.DrivenTo.done (g e : Signals) : g.DrivenTo e e := by
  constructor <;> exact .inr rfl

section DriveRow

variable {x : Inputs} {g g' : Signals}

/-- Passing the length check drives `err` and `hdr_valid` as DECODE does. -/
theorem Signals.accepted_drivenTo (h : g.DrivenTo (.ofFrame x) g') : g.DrivenTo (.ofFrame x) g'.accepted :=
  { h with err := .inr rfl, hdrValid := .inr rfl }

theorem Signals.driveLe16_drivenTo {o : Nat} (ho : (Instr.le16 o).wellFormed = true)
    (h : g.DrivenTo (.ofFrame x) g') : g.DrivenTo (.ofFrame x) (g'.driveLe16 o (x.word o)) := by
  have hmem : o ∈ [3, 5, 8, 10, 12, 14] := List.contains_iff_mem.1 ho
  simp only [List.mem_cons, List.not_mem_nil, or_false] at hmem
  rcases hmem with rfl | rfl | rfl | rfl | rfl | rfl
  · exact { h with le16At3 := .inr rfl }
  · exact { h with le16At5 := .inr rfl }
  · exact { h with le16At8 := .inr rfl }
  · exact { h with le16At10 := .inr rfl }
  · exact { h with le16At12 := .inr rfl }
  · exact { h with le16At14 := .inr rfl }

/-- An image-type row drives the class of the code, or nothing. -/
theorem Signals.driveRow_type_drivenTo {i : Instr} (hi : i.pattern.format = .type8)
    (h : g.DrivenTo (.ofFrame x) g') : g.DrivenTo (.ofFrame x) (Signals.driveRow i x g') := by
  rcases hc : x.typeCode with _ | c
  · rw [Signals.driveRow_type_noCode hi hc]
    refine { h with typeIdx := .inr ?_, typeKnown := .inr ?_ } <;> simp [Signals.ofFrame, hc]
  cases hm : i.pattern.matchesWord c.toNat
  · rw [Signals.driveRow_unselected hi hc hm]
    exact h
  · rw [Signals.driveRow_selected hi hc hm]
    refine { h with typeIdx := .inr ?_, typeKnown := .inr ?_ } <;> simp [Signals.ofFrame, hc]

/-- Every row drives some of its signals as DECODE does, and keeps the others. -/
theorem Signals.driveRow_drivenTo {i : Instr} (hi : i.wellFormed = true) (h : g.DrivenTo (.ofFrame x) g') :
    g.DrivenTo (.ofFrame x) (Signals.driveRow i x g') :=
  match i with
  | .decode => .done _ _
  | .lenchk => h
  | .le16 _ => driveLe16_drivenTo hi h
  | .extIdlen => { h with idLenField := .inr rfl }
  | .extCmtype => { h with colorMapType := .inr rfl }
  | .extImgtype => { h with imageTypeCode := .inr rfl }
  | .extCmfirst => { h with firstEntryIndex := .inr rfl }
  | .extCmlen => { h with mapLength := .inr rfl }
  | .extCmesize => { h with mapEntrySize := .inr rfl }
  | .extXorg => { h with xOrigin := .inr rfl }
  | .extYorg => { h with yOrigin := .inr rfl }
  | .extWidth => { h with width := .inr rfl }
  | .extHeight => { h with height := .inr rfl }
  | .extPixdepth => { h with pixelDepth := .inr rfl }
  | .extDesc => { h with descriptorByte := .inr rfl }
  | .cmapSummary => { h with cmapPresentSummary := .inr rfl }
  | .cmapVerbose => { h with cmapPresentVerbose := .inr rfl }
  | .itNone | .itCmap | .itTrue | .itGray | .itRleCmap | .itRleTrue | .itRleGray | .itUnknown7 | .itUnknown8To15
  | .itUnknown16To31 | .itUnknown32To63 | .itUnknown64To127 | .itUnknown128To255 =>
    driveRow_type_drivenTo rfl h
  | .typeKnown => { h with typeKnown := .inr rfl }
  | .typeName => { h with imageTypeName := .inr rfl }
  | .descAlpha => { h with descAlpha := .inr rfl }
  | .descHCompat => { h with hCompat := .inr rfl }
  | .descHCorr => { h with hCorr := .inr rfl }
  | .descVCompat => { h with vCompat := .inr rfl }
  | .descVCorr => { h with vCorr := .inr rfl }
  | .descSel => { h with descH := .inr rfl, descV := .inr rfl }

end DriveRow

/-! ## Rows run one after the other -/

/-- The signals that one row leaves, by the length check's answer. -/
def Signals.evalRow (i : Instr) (x : Inputs) (g : Signals) : Signals :=
  match x.errOf with
  | none => .undriven
  | some true => .insufficientData
  | some false => Signals.driveRow i x g.accepted

/-- The signals that rows leave one after the other. -/
def Signals.evalRows (rs : List Instr) (x : Inputs) (g : Signals) : Signals :=
  rs.foldl (fun g i => Signals.evalRow i x g) g

theorem exec_eq_evalRow {i : Instr} (hi : i.wellFormed = true) (s : State) :
    exec i s = .next (s.withSig (Signals.evalRow i s.inputs s.sig)) := by
  rcases exec_cases i s hi with ⟨h, he⟩ | ⟨h, he⟩ | ⟨h, he⟩ <;> simp only [he, Signals.evalRow, h]

theorem runRows_eq_evalRows {rs : List Instr} (hwf : ∀ i ∈ rs, i.wellFormed = true) (s : State) :
    runRows rs s = .next (s.withSig (Signals.evalRows rs s.inputs s.sig)) := by
  induction rs generalizing s with
  | nil => rfl
  | cons i is ih =>
    obtain ⟨hi, his⟩ := List.forall_mem_cons.1 hwf
    simp only [runRows, exec_eq_evalRow hi]
    exact ih his _

section EvalRows

variable {x : Inputs}

/-- A row drives signals to what DECODE drives, whatever the length check answers. -/
theorem Signals.evalRow_drivenTo {i : Instr} (hi : i.wellFormed = true) (g : Signals) :
    g.DrivenTo (.evaluated x) (Signals.evalRow i x g) := by
  rcases h : x.errOf with _ | _ | _ <;> simp only [Signals.evalRow, Signals.evaluated, h]
  · exact .done _ _
  · exact driveRow_drivenTo hi (accepted_drivenTo (.refl _ _))
  · exact .done _ _

/-- A row that drives the signal `π` as DECODE does on an accepted frame drives it so in every transaction. -/
theorem Signals.evalRow_settles {α : Type} {π : Signals → Option α} {i : Instr}
    (h : ∀ g : Signals, π (Signals.driveRow i x g.accepted) = π (.ofFrame x)) (g : Signals) :
    π (Signals.evalRow i x g) = π (.evaluated x) := by
  rcases he : x.errOf with _ | _ | _ <;> simp only [Signals.evalRow, Signals.evaluated, he, h]

/-- A signal that every row keeps or drives as DECODE does carries DECODE's value once one row has driven it. -/
theorem Signals.evalRows_settles {α : Type} {π : Signals → Option α} {i : Instr} {rs : List Instr}
    (hkeep : ∀ {g g' : Signals}, g.DrivenTo (.evaluated x) g' → KeptOr (π g) (π (.evaluated x)) (π g'))
    (hdrive : ∀ g : Signals, π (Signals.driveRow i x g.accepted) = π (.ofFrame x))
    (hwf : ∀ j ∈ rs, j.wellFormed = true) (hi : i ∈ rs) (g : Signals) :
    π (Signals.evalRows rs x g) = π (.evaluated x) := by
  have hstay : ∀ (is : List Instr) (g : Signals), (∀ j ∈ is, j.wellFormed = true) →
      π g = π (.evaluated x) → π (Signals.evalRows is x g) = π (.evaluated x) := by
    intro is
    induction is with
    | nil => exact fun _ _ hg => hg
    | cons j is ih =>
      intro g hwf hg
      obtain ⟨hj, his⟩ := List.forall_mem_cons.1 hwf
      exact ih _ his ((hkeep (evalRow_drivenTo hj g)).elim (·.trans hg) id)
  obtain ⟨before, after, rfl⟩ := List.append_of_mem hi
  rw [Signals.evalRows, List.foldl_append, List.foldl_cons]
  exact hstay after _ (fun j hj => hwf j (by simp [hj])) (evalRow_settles hdrive _)

/-- Some row of R73's table drives the class that DECODE gives. -/
theorem exists_driveRow_typeIdx (x : Inputs) : ∃ i ∈ tableRows, i ≠ .decode ∧
    ∀ g : Signals, (Signals.driveRow i x g).typeIdx = (Signals.ofFrame x).typeIdx := by
  rcases hc : x.typeCode with _ | c
  · refine ⟨.itNone, by decide, by decide, fun g => ?_⟩
    rw [Signals.driveRow_type_noCode rfl hc]
    simp [Signals.ofFrame, hc]
  · obtain ⟨i, hone⟩ := tableMatches_type8 c
    have hmem : i ∈ tableMatches .type8 c.toNat := hone ▸ List.mem_singleton_self i
    obtain ⟨hi, hm⟩ := mem_tableMatches_type8.1 hmem
    refine ⟨i, List.mem_of_mem_filter hmem, (by rintro rfl; cases hi), fun g => ?_⟩
    rw [Signals.driveRow_selected hi hc hm]
    simp [Signals.ofFrame, hc]

/-- All rows together leave what DECODE leaves: each signal is driven by one of them. -/
theorem Signals.evalRows_eq_evaluated {rs : List Instr} (hwf : ∀ i ∈ rs, i.wellFormed = true)
    (hall : ∀ i ∈ tableRows, i ≠ .decode → i ∈ rs) (g : Signals) :
    Signals.evalRows rs x g = .evaluated x := by
  have settle : ∀ {α : Type} {π : Signals → Option α} (i : Instr),
      (∀ {g g' : Signals}, g.DrivenTo (.evaluated x) g' → KeptOr (π g) (π (.evaluated x)) (π g')) →
      (∀ g : Signals, π (Signals.driveRow i x g.accepted) = π (.ofFrame x)) →
      i ∈ tableRows ∧ i ≠ .decode → π (Signals.evalRows rs x g) = π (.evaluated x) :=
    fun i hkeep hdrive hi => evalRows_settles hkeep hdrive hwf (hall i hi.1 hi.2) g
  obtain ⟨t, ht, hne, htype⟩ := exists_driveRow_typeIdx x
  exact (Signals.mk.injEq ..).mpr
    ⟨settle .lenchk (·.err) (fun _ => rfl) (by decide),
     settle .lenchk (·.hdrValid) (fun _ => rfl) (by decide),
     settle .extIdlen (·.idLenField) (fun _ => rfl) (by decide),
     settle .extCmtype (·.colorMapType) (fun _ => rfl) (by decide),
     settle .extImgtype (·.imageTypeCode) (fun _ => rfl) (by decide),
     settle .extCmfirst (·.firstEntryIndex) (fun _ => rfl) (by decide),
     settle .extCmlen (·.mapLength) (fun _ => rfl) (by decide),
     settle .extCmesize (·.mapEntrySize) (fun _ => rfl) (by decide),
     settle .extXorg (·.xOrigin) (fun _ => rfl) (by decide),
     settle .extYorg (·.yOrigin) (fun _ => rfl) (by decide),
     settle .extWidth (·.width) (fun _ => rfl) (by decide),
     settle .extHeight (·.height) (fun _ => rfl) (by decide),
     settle .extPixdepth (·.pixelDepth) (fun _ => rfl) (by decide),
     settle .extDesc (·.descriptorByte) (fun _ => rfl) (by decide),
     settle .cmapSummary (·.cmapPresentSummary) (fun _ => rfl) (by decide),
     settle .cmapVerbose (·.cmapPresentVerbose) (fun _ => rfl) (by decide),
     settle t (·.typeIdx) (fun _ => htype _) ⟨ht, hne⟩,
     settle .typeKnown (·.typeKnown) (fun _ => rfl) (by decide),
     settle .descAlpha (·.descAlpha) (fun _ => rfl) (by decide),
     settle .descSel (·.descH) (fun _ => rfl) (by decide),
     settle .descSel (·.descV) (fun _ => rfl) (by decide),
     settle (.le16 3) (·.le16At3) (fun _ => rfl) (by decide),
     settle (.le16 5) (·.le16At5) (fun _ => rfl) (by decide),
     settle (.le16 8) (·.le16At8) (fun _ => rfl) (by decide),
     settle (.le16 10) (·.le16At10) (fun _ => rfl) (by decide),
     settle (.le16 12) (·.le16At12) (fun _ => rfl) (by decide),
     settle (.le16 14) (·.le16At14) (fun _ => rfl) (by decide),
     settle .typeName (·.imageTypeName) (fun _ => rfl) (by decide),
     settle .descHCompat (·.hCompat) (fun _ => rfl) (by decide),
     settle .descHCorr (·.hCorr) (fun _ => rfl) (by decide),
     settle .descVCompat (·.vCompat) (fun _ => rfl) (by decide),
     settle .descVCorr (·.vCorr) (fun _ => rfl) (by decide)⟩

end EvalRows

/-- Settles O18: both sides leave the evaluated signals. -/
theorem decodePerformsEveryRow : Obligations.DecodePerformsEveryRow := by
  intro s rs hwf hall
  rw [runRows_eq_evalRows hwf, Signals.evalRows_eq_evaluated hwf hall, exec_decode]

end Sys2Proof.Machine
end

section
/-! Field extraction (R101 to R115): on a presented frame each row drives its own bytes of the frame, and a row
on a buffer that is too short drives the exception. -/

namespace Sys2Proof.Machine

open Sys2Proof

/-! ## Reads of a presented frame -/

/-- On a presented frame a byte read gives its byte (R9, R54). -/
theorem State.presents.byte {s : State} {f : Frame} {n : Nat} (h : s.presents f n) (k : Nat) (hk : k < 18) :
    s.inputs.byte k = some f[k] :=
  h.2.2 k hk

/-- On a presented frame a 16-bit read gives its two bytes, the higher offset high (R102). -/
theorem State.presents.word {s : State} {f : Frame} {n : Nat} (h : s.presents f n) (o : Nat) (ho : o + 1 < 18) :
    s.inputs.word o = some (f[o + 1] ++ f[o]) := by
  rw [Inputs.word_of_bytes (h.byte o (by omega)) (h.byte (o + 1) ho), le16_eq_append]

/-! ## Rows on a buffer that is too short -/

/-- Below 18 bytes a well-formed row drives the exception and nothing of its own (R101, R203). -/
theorem State.presentsShort.exec_eq {s : State} {n : Nat} (h : s.presentsShort n) {i : Instr}
    (hi : i.wellFormed = true) : exec i s = .next (s.withSig .insufficientData) := by
  rw [exec_eq_transaction i s hi, transaction_short _ h.errOf]

/-- Settles O21, by the two sides of the length check. -/
theorem lengthCheckRaisesBelow18 : Obligations.LengthCheckRaisesBelow18 :=
  fun _ _ => ⟨fun h => h.exec_eq rfl, fun _ h => h.exec_eq rfl⟩

/-! ## The twelve fields -/

/-- Settles O29: each row drives its byte read. -/
theorem byteFieldsExtracted : Obligations.ByteFieldsExtracted := by
  intro s f n h
  refine ⟨?_, ?_, ?_, ?_, ?_, ?_⟩ <;> rw [h.exec_eq rfl, Signals.driveRow, h.byte]

/-- Settles O30: each row drives its 16-bit read. -/
theorem wordFieldsExtracted : Obligations.WordFieldsExtracted := by
  intro s f n h
  refine ⟨?_, ?_, ?_, ?_, ?_, ?_⟩ <;> rw [h.exec_eq rfl, Signals.driveRow, h.word]

/-! ## LE16 -/

/-- LE16 as a sum: the low byte plus 256 times the high one (R102). -/
theorem toNat_le16 (lo hi : Byte) : (le16 lo hi).toNat = lo.toNat + 256 * hi.toNat := by
  rw [le16_eq_append, BitVec.toNat_append, ← Nat.shiftLeft_add_eq_or_of_lt lo.isLt, Nat.shiftLeft_eq]
  omega

/-- On a presented frame LE16 at one of its offsets drives the two bytes there. -/
theorem State.presents.exec_le16 {s : State} {f : Frame} {n : Nat} (h : s.presents f n) (o : Nat)
    (hw : (Instr.le16 o).wellFormed = true) (ho : o + 1 < 18) :
    exec (.le16 o) s = .next (s.withSig (s.sig.accepted.driveLe16 o (some (f[o + 1] ++ f[o])))) := by
  rw [h.exec_eq hw, Signals.driveRow, h.word o ho]

/-- Settles O31: the assembly of two bytes, then its row at each of the six offsets. -/
theorem le16Assembles : Obligations.Le16Assembles :=
  ⟨fun lo hi => ⟨le16_eq_append lo hi, toNat_le16 lo hi⟩, fun _ _ _ h =>
    ⟨h.exec_le16 3 rfl (by decide), h.exec_le16 5 rfl (by decide), h.exec_le16 8 rfl (by decide),
      h.exec_le16 10 rfl (by decide), h.exec_le16 12 rfl (by decide), h.exec_le16 14 rfl (by decide)⟩⟩

/-- Settles O32: the offset is in no entry of the table, and the two stops part at the frame's last byte. -/
theorem le16ElsewhereStops : Obligations.Le16ElsewhereStops := by
  intro s o ho
  have hc : ¬ wordOffsets.contains o = true := fun h => ho (List.contains_iff_mem.1 h)
  have hlast : o + 1 < Config.frameBytes ↔ o < 17 := by
    rw [Config.frameBytes]
    omega
  rw [exec, execLe16, if_neg hc]
  simp only [hlast]

end Sys2Proof.Machine
end

section
/-! DECODE drives every output (R100, R115), in the words of the spec's fields. -/

namespace Sys2Proof.Machine

open Sys2Proof

/-! ## The descriptor's slices, bit by bit -/

/-- The alpha count is bits 3:0 (R160). -/
theorem descAlphaOf_eq_extractLsb' (d : Byte) : descAlphaOf d = d.extractLsb' 0 4 := by
  revert d
  decide

/-- A masked bit 4 is never the integer 1: the source's defect (R161). -/
theorem hCompatOf_eq_false (d : Byte) : hCompatOf d = false := by
  revert d
  decide

/-- A masked bit 5 is never the integer 1: the source's defect (R163). -/
theorem vCompatOf_eq_false (d : Byte) : vCompatOf d = false := by
  revert d
  decide

theorem hCorrOf_eq_getLsbD (d : Byte) : hCorrOf d = d.getLsbD 4 := by
  revert d
  decide

theorem vCorrOf_eq_getLsbD (d : Byte) : vCorrOf d = d.getLsbD 5 := by
  revert d
  decide

/-- The strap lets bit 4 through (R165). -/
theorem descHOf_eq_and (d : Byte) (m : Bool) : descHOf d m = (m && d.getLsbD 4) := by
  cases m
  · exact hCompatOf_eq_false d
  · exact hCorrOf_eq_getLsbD d

/-- The strap lets bit 5 through (R165). -/
theorem descVOf_eq_and (d : Byte) (m : Bool) : descVOf d m = (m && d.getLsbD 5) := by
  cases m
  · exact vCompatOf_eq_false d
  · exact vCorrOf_eq_getLsbD d

/-! ## The presence predicates -/

theorem cmapSummaryOf_eq_decide (c : Byte) : cmapSummaryOf c = decide (c = 1) := rfl

theorem cmapVerboseOf_eq_decide (c : Byte) : cmapVerboseOf c = decide (c ≠ 0) := by
  rw [cmapVerboseOf, bne, decide_not]
  rfl

/-! ## Every output -/

/-- On a presented frame DECODE drives the signals of the frame. -/
theorem State.presents.exec_decode {s : State} {f : Frame} {n : Nat} (h : s.presents f n) :
    exec .decode s = .next (s.withSig (.ofFrame s.inputs)) := h.exec_eq rfl

/-- Settles O16: each output is a value computed from one byte read or 16-bit read of the frame. -/
theorem decodeDrivesEveryOutput : Obligations.DecodeDrivesEveryOutput := by
  refine ⟨fun s f n h => ⟨_, h.exec_decode, rfl, ?_⟩, fun s n h => h.exec_eq rfl⟩
  have hcm : s.inputs.cmType = some f[1] := h.byte 1 (by decide)
  have htype : s.inputs.typeCode = some f[2] := h.byte 2 (by decide)
  have hdesc : s.inputs.desc = some f[17] := h.byte 17 (by decide)
  exact ⟨rfl, rfl, h.byte 0 (by decide), h.byte 1 (by decide), h.byte 2 (by decide), h.word 3 (by decide),
    h.word 5 (by decide), h.byte 7 (by decide), h.word 8 (by decide), h.word 10 (by decide),
    h.word 12 (by decide), h.word 14 (by decide), h.byte 16 (by decide), h.byte 17 (by decide),
    Option.map_eq_some_iff.2 ⟨_, hcm, cmapSummaryOf_eq_decide _⟩,
    Option.map_eq_some_iff.2 ⟨_, hcm, cmapVerboseOf_eq_decide _⟩,
    Option.map_eq_some_iff.2 ⟨_, htype, imgTypeLut_eq _⟩,
    Option.map_eq_some_iff.2 ⟨_, htype, typeKnownOf_imgTypeLut _⟩,
    Option.map_eq_some_iff.2 ⟨_, hdesc, descAlphaOf_eq_extractLsb' _⟩,
    Option.map_eq_some_iff.2 ⟨_, hdesc, descHOf_eq_and _ _⟩,
    Option.map_eq_some_iff.2 ⟨_, hdesc, descVOf_eq_and _ _⟩⟩

end Sys2Proof.Machine
end

section
/-! Packing (R117): `pack` and `unpack` are inverse to each other, and DECODE of a presented frame gives its
unpacked fields. -/

namespace Sys2Proof

/-! ## A field and its two bytes -/

theorem le16_loByte_hiByte (v : Word) : le16 (loByte v) (hiByte v) = v :=
  (le16_slices v 0).trans BitVec.extractLsb'_eq_self

theorem loByte_le16 (lo hi : Byte) : loByte (le16 lo hi) = lo := by
  rw [le16_eq_append, loByte, BitVec.extractLsb'_append_eq_right]

theorem hiByte_le16 (lo hi : Byte) : hiByte (le16 lo hi) = hi := by
  rw [le16_eq_append, hiByte, BitVec.extractLsb'_append_eq_left]

/-! ## A header and its frame -/

/-- Packed field values are read back. -/
theorem unpack_pack (h : Header) : unpack (pack h) = h := by
  simp [unpack, pack, le16_loByte_hiByte]

/-- No bit of a frame is lost in its fields: byte by byte, `pack` puts back what `unpack` took. -/
theorem pack_unpack (f : Frame) : pack (unpack f) = f := by
  ext k hk : 1
  simp only [pack, unpack, loByte_le16, hiByte_le16]
  interval_cases k <;> rfl

namespace Machine

/-- On a presented frame DECODE completes and the ports carry the frame's unpacked fields. -/
theorem State.presents.decode_header {s : State} {f : Frame} {n : Nat} (h : s.presents f n) :
    ∃ t d, exec .decode s = .next t ∧ t.sig.err = some false ∧ t.sig.decoded = some d ∧
      d.header = unpack f :=
  ⟨_, _, h.exec_decode, rfl, h.decoded, rfl⟩

/-- Settles O14: the ports carry `unpack` of the frame, and `pack` is its inverse on both sides. -/
theorem headerRoundTrip : Obligations.HeaderRoundTrip := by
  refine ⟨fun hd s n h => ?_, fun f s n h => ?_⟩
  · obtain ⟨t, d, hexec, herr, hdec, heq⟩ := h.decode_header
    exact ⟨t, d, hexec, herr, hdec, heq.trans (unpack_pack hd)⟩
  · obtain ⟨t, d, hexec, -, hdec, heq⟩ := h.decode_header
    exact ⟨t, d, hexec, hdec, heq ▸ pack_unpack f⟩

end Machine

end Sys2Proof
end

section
/-! Bytes beyond offset 17 (R116): a DECODE line reaches the outputs, and so the host's record, through its
first 18 bytes, its mode and the length check alone. -/

namespace Sys2Proof.Machine

open Sys2Proof

/-- From 18 bytes on, lines whose first 18 bytes and modes agree drive ports that differ in the length alone. -/
theorem Presented.inputs_eq_of_take {p q : Presented} (hp : 18 ≤ p.len) (hq : 18 ≤ q.len)
    (hb : p.bytes.take 18 = q.bytes.take 18) (hm : p.corrected = q.corrected) :
    q.inputs = { p.inputs with lenIn := some q.len } := by
  simp only [Presented.inputs, Config.frameBytes, Nat.min_eq_right hp, Nat.min_eq_right hq, hb, hm]

/-- Such lines evaluate to the same signals. -/
theorem Presented.evaluated_eq_of_take {p q : Presented} (hp : 18 ≤ p.len) (hq : 18 ≤ q.len)
    (hb : p.bytes.take 18 = q.bytes.take 18) (hm : p.corrected = q.corrected) :
    Signals.evaluated p.inputs = Signals.evaluated q.inputs := by
  rw [Presented.inputs_eq_of_take hp hq hb hm]
  exact Signals.evaluated_lenIn_congr p.inputs
    (iff_of_false (Nat.not_lt.2 hp) (Nat.not_lt.2 hq))

/-- The event the host records depends on the signals alone (R224). -/
theorem hostSample_eq_of_sig (g : Signals) : ∃ e, ∀ s : State, s.sig = g → hostSample s = s.record e := by
  rcases herr : g.err with _ | _ | _
  · exact ⟨.undefinedHeader, fun s hs => by simp only [hostSample, hs, herr]⟩
  · rcases hdec : g.decoded with _ | d
    · exact ⟨.undefinedHeader, fun s hs => by simp only [hostSample, hs, herr, hdec]⟩
    · exact ⟨.header d, fun s hs => by simp only [hostSample, hs, herr, hdec]⟩
  · exact ⟨.readFailure, fun s hs => by simp only [hostSample, hs, herr]⟩

/-- Settles O25: both lines evaluate to the same signals, of which the host records the same event. -/
theorem trailingBytesAreIgnored : Obligations.TrailingBytesAreIgnored := by
  intro s p q rest hp hq hb hm
  obtain ⟨e, he⟩ := hostSample_eq_of_sig (.evaluated p.inputs)
  rw [step_decode rfl, step_decode rfl, runDecodeLine_eq, runDecodeLine_eq,
    ← Presented.evaluated_eq_of_take hp hq hb hm, he _ rfl, he _ rfl]
  exact ⟨_, _, rfl, rfl, rfl, rfl⟩

end Sys2Proof.Machine
end

section
/-! The two presence predicates (R130 to R132): what each computes from the `colorMapType` byte, the rows that
drive them, and where they disagree. -/

namespace Sys2Proof.Machine

open Sys2Proof

/-! ## The predicates by number -/

/-- The summary's test is for the number 1 (R130). -/
theorem cmapSummaryOf_eq_decide_toNat (c : Byte) : cmapSummaryOf c = decide (c.toNat = 1) :=
  (cmapSummaryOf_eq_decide c).trans (decide_eq_decide.2 BitVec.toNat_inj.symm)

/-- The verbose block's test is for any number but 0 (R131). -/
theorem cmapVerboseOf_eq_decide_toNat (c : Byte) : cmapVerboseOf c = decide (c.toNat ≠ 0) :=
  (cmapVerboseOf_eq_decide c).trans (decide_eq_decide.2 (not_congr BitVec.toNat_inj.symm))

/-- From 2 on the summary's test fails and the verbose block's holds. -/
theorem cmapPredicates_of_two_le {c : Byte} (h : 2 ≤ c.toNat) :
    cmapSummaryOf c = false ∧ cmapVerboseOf c = true := by
  rw [cmapSummaryOf_eq_decide_toNat, cmapVerboseOf_eq_decide_toNat, decide_eq_false_iff_not, decide_eq_true_iff]
  omega

/-- The tests disagree from 2 on and nowhere else: at 0 both fail, at 1 both hold (R132). -/
theorem cmapPredicates_ne_iff (c : Byte) : cmapSummaryOf c ≠ cmapVerboseOf c ↔ 2 ≤ c.toNat := by
  rw [cmapSummaryOf_eq_decide_toNat, cmapVerboseOf_eq_decide_toNat, Ne, decide_eq_decide]
  omega

/-! ## The rows -/

/-- On a presented frame the predicates read its byte 1. -/
theorem State.presents.cmType {s : State} {f : Frame} {n : Nat} (h : s.presents f n) :
    s.inputs.cmType = some f[1] := h.byte 1 (by decide)

/-- Settles O33: each row drives its test of byte 1, whatever the strap, and takes the exception on a short
buffer. -/
theorem presencePredicates : Obligations.PresencePredicates := by
  refine fun s n => ⟨fun f h => ⟨?_, ?_⟩, fun h => ⟨h.exec_eq rfl, h.exec_eq rfl⟩⟩
  · rw [h.exec_eq rfl, Signals.driveRow, h.cmType, Option.map_some, cmapSummaryOf_eq_decide_toNat]
  · rw [h.exec_eq rfl, Signals.driveRow, h.cmType, Option.map_some, cmapVerboseOf_eq_decide_toNat]

/-- Settles O34: DECODE drives both tests of the same byte, and the tests disagree exactly from 2 on. -/
theorem predicatesDisagreeFrom2 : Obligations.PredicatesDisagreeFrom2 := by
  intro s f n h
  refine ⟨_, h.exec_decode, ?_⟩
  rw [State.withSig_sig, Signals.ofFrame, h.cmType, Option.map_some, Option.map_some]
  refine ⟨(Option.some_injective _).ne_iff.trans (cmapPredicates_ne_iff _), fun h2 => ?_⟩
  obtain ⟨hsummary, hverbose⟩ := cmapPredicates_of_two_le h2
  exact ⟨congrArg some hsummary, congrArg some hverbose⟩

end Sys2Proof.Machine
end

section
/-! The image-type LUT (R140 to R150): the seven known rows, the six ranges of unknown codes, the name table and
the known flag. -/

namespace Sys2Proof.Machine

open Sys2Proof

/-! ## The patterns of the ranges -/

/-- A mask of `j` bits from bit `k` up keeps those bits of the word. -/
theorem and_highMask (w j k : Nat) : w &&& (2 ^ j - 1) <<< k = (w >>> k % 2 ^ j) <<< k := by
  rw [← Nat.and_two_pow_sub_one_eq_mod, Nat.shiftLeft_and_distrib]
  refine Nat.eq_of_testBit_eq fun b => ?_
  rcases Nat.lt_or_ge b k with hb | hb
  · simp [Nat.not_le.2 hb]
  · simp [hb]

/-- A TYPE8 pattern that tests the upper `8 - k` bits of a code matches the `2 ^ k` codes from its value on
(R73). -/
theorem matchesWord_of_range (q k : Nat) (hk : k ≤ 8) {c : Byte} (hlo : q * 2 ^ k ≤ c.toNat)
    (hhi : c.toNat < (q + 1) * 2 ^ k) :
    Pattern.matchesWord ⟨.type8, q <<< k, (2 ^ (8 - k) - 1) <<< k⟩ c.toNat = true := by
  have hbyte : c.toNat < 2 ^ k * 2 ^ (8 - k) := by
    rw [← Nat.pow_add, Nat.add_sub_cancel' hk]
    exact c.isLt
  have hq : c.toNat / 2 ^ k = q := Nat.div_eq_of_lt_le hlo hhi
  rw [Pattern.matchesWord, beq_iff_eq, and_highMask, Nat.shiftRight_eq_div_pow,
    Nat.mod_eq_of_lt (Nat.div_lt_of_lt_mul hbyte), hq]

/-! ## The image-type rows -/

/-- On a presented frame the image-type rows read its byte 2. -/
theorem State.presents.typeCode {s : State} {f : Frame} {n : Nat} (h : s.presents f n) :
    s.inputs.typeCode = some f[2] := h.byte 2 (by decide)

section TypeRow

variable {s : State} {f : Frame} {n : Nat} {i : Instr}

/-- The row that the frame's code selects drives the code's class and flag, in numbers. -/
theorem State.presents.exec_selected (h : s.presents f n) (hi : i.pattern.format = .type8)
    (hm : i.pattern.matchesWord f[2].toNat = true) :
    exec i s = .next (s.withSig { s.sig.accepted with
      typeIdx := some (if f[2].toNat ≤ 6 then BitVec.ofNat 3 f[2].toNat else 7)
      typeKnown := some (decide (f[2].toNat ≤ 6)) }) := by
  rw [h.exec_eq (wellFormed_of_type8 hi), Signals.driveRow_selected hi h.typeCode hm, typeKnownOf_imgTypeLut,
    imgTypeLut_eq]

/-- The row of a code from 0 to 6 drives the code as the class, and the flag. -/
theorem State.presents.exec_knownRow (h : s.presents f n) (hi : i.pattern.format = .type8) {c : Byte}
    (hm : i.pattern.matchesWord c.toNat = true) (hknown : c.toNat ≤ 6) (hc : f[2] = c) :
    exec i s = .next (s.withSig { s.sig.accepted with
      typeIdx := some (BitVec.ofNat 3 c.toNat), typeKnown := some true }) := by
  rw [h.exec_selected hi (hc ▸ hm), hc, if_pos hknown, decide_eq_true hknown]

/-- A row whose pattern is a range of codes from 7 on drives class 7 and no flag, and raises nothing (R148). -/
theorem State.presents.exec_unknownRow (h : s.presents f n) (q k : Nat)
    (hp : i.pattern = ⟨.type8, q <<< k, (2 ^ (8 - k) - 1) <<< k⟩) (hk : k ≤ 8) (h7 : 7 ≤ q * 2 ^ k)
    (hlo : q * 2 ^ k ≤ f[2].toNat) (hhi : f[2].toNat < (q + 1) * 2 ^ k) :
    exec i s = .next (s.withSig { s.sig.accepted with typeIdx := some 7, typeKnown := some false }) := by
  have hm : i.pattern.matchesWord f[2].toNat = true := hp ▸ matchesWord_of_range q k hk hlo hhi
  have hunknown : ¬ f[2].toNat ≤ 6 := by omega
  rw [h.exec_selected (congrArg Pattern.format hp) hm, if_neg hunknown, decide_eq_false hunknown]

end TypeRow

/-- Settles O35: each row's pattern is its one code. -/
theorem knownTypeRows : Obligations.KnownTypeRows := fun _ _ _ h =>
  ⟨h.exec_knownRow rfl rfl (by decide), h.exec_knownRow rfl rfl (by decide), h.exec_knownRow rfl rfl (by decide),
    h.exec_knownRow rfl rfl (by decide), h.exec_knownRow rfl rfl (by decide), h.exec_knownRow rfl rfl (by decide),
    h.exec_knownRow rfl rfl (by decide), rfl, rfl, rfl, rfl, rfl, rfl, rfl⟩

/-- Settles O36: each row's pattern is its range, 7 alone or the codes with the same highest bit. -/
theorem unknownTypeRows : Obligations.UnknownTypeRows := by
  intro s f n h
  refine ⟨fun hcode => ?_, fun hlo hhi => ?_, fun hlo hhi => ?_, fun hlo hhi => ?_, fun hlo hhi => ?_,
    fun hlo => ?_, rfl⟩
  · exact h.exec_unknownRow 7 0 rfl (by decide) (by decide) (by omega) (by omega)
  · exact h.exec_unknownRow 1 3 rfl (by decide) (by decide) (by omega) (by omega)
  · exact h.exec_unknownRow 1 4 rfl (by decide) (by decide) (by omega) (by omega)
  · exact h.exec_unknownRow 1 5 rfl (by decide) (by decide) (by omega) (by omega)
  · exact h.exec_unknownRow 1 6 rfl (by decide) (by decide) (by omega) (by omega)
  · exact h.exec_unknownRow 1 7 rfl (by decide) (by decide) (by omega) (by omega)

/-! ## The name table and the known flag -/

/-- Settles O37: the table is read at each of its eight indices, and the row reads it at the code's class. -/
theorem typeNames : Obligations.TypeNames := by
  refine ⟨fun idx => ?_, fun s n => ⟨fun f h => ?_, fun h => h.exec_eq rfl⟩⟩
  · have hidx : idx.toNat < 8 := idx.isLt
    rw [typeNameOf]
    interval_cases idx.toNat <;> rfl
  · rw [h.exec_eq rfl, Signals.driveRow, h.typeCode, Option.map_some, imgTypeLut_eq]

/-- Settles O38: the row drives whether the code's class is not 7. -/
theorem typeKnownFlag : Obligations.TypeKnownFlag := by
  refine fun s n => ⟨fun f h => ?_, fun h => h.exec_eq rfl⟩
  rw [h.exec_eq rfl, Signals.driveRow, h.typeCode, Option.map_some, typeKnownOf_imgTypeLut]

end Sys2Proof.Machine
end

section
/-! The descriptor byte (R160 to R168): its slices, the two tests of each ordering bit, the strap's choice, and the
two bits that feed nothing. -/

namespace Sys2Proof.Machine

open Sys2Proof

/-- On a presented frame the descriptor's rows read its byte 17. -/
theorem State.presents.desc {s : State} {f : Frame} {n : Nat} (h : s.presents f n) :
    s.inputs.desc = some f[17] := h.byte 17 (by decide)

/-! ## The rows -/

/-- Settles O39: each row drives its slice or test of byte 17, and the alpha row takes the exception on a short
buffer. -/
theorem descriptorSlices : Obligations.DescriptorSlices := by
  refine fun s n => ⟨fun f h => ?_, fun h => h.exec_eq rfl⟩
  refine ⟨?_, ?_, ?_, ?_, ?_⟩ <;> rw [h.exec_eq rfl, Signals.driveRow, h.desc, Option.map_some]
  · rw [descAlphaOf_eq_extractLsb']
  · rw [hCompatOf_eq_false]
  · rw [hCorrOf_eq_getLsbD]
  · rw [vCompatOf_eq_false]
  · rw [vCorrOf_eq_getLsbD]

/-- Settles O40, by the strap: it lets bits 4 and 5 through, or neither. -/
theorem strapSelectsOrderingFlags : Obligations.StrapSelectsOrderingFlags := by
  refine fun s n => ⟨fun f h => ?_, fun h => h.exec_eq rfl⟩
  rw [h.exec_eq rfl, Signals.driveRow, h.desc, Option.map_some, Option.map_some, descHOf_eq_and, descVOf_eq_and]
  cases s.inputs.cfgCorrected <;> rfl

/-! ## DECODE's descriptor signals -/

/-- Settles O41: the strap 0 lets neither bit through, and the alpha depth does not read the strap. -/
theorem compatibilityModeIsConstant : Obligations.CompatibilityModeIsConstant := by
  intro s f n h hstrap
  refine ⟨_, h.exec_decode, ?_⟩
  rw [State.withSig_sig, Signals.ofFrame, h.desc, hstrap]
  exact ⟨congrArg some (hCompatOf_eq_false _), congrArg some (vCompatOf_eq_false _), rfl⟩

/-! ## Bits 7:6 -/

/-- The alpha count is a slice of the descriptor's bits 5:0. -/
theorem descAlphaOf_eq_low6 (d : Byte) : descAlphaOf d = (d.extractLsb' 0 6).extractLsb' 0 4 := by
  rw [descAlphaOf_eq_extractLsb', BitVec.extractLsb'_extractLsb'_of_le (by decide)]

/-- The corrected horizontal test is a bit of the descriptor's bits 5:0. -/
theorem hCorrOf_eq_low6 (d : Byte) : hCorrOf d = (d.extractLsb' 0 6).getLsbD 4 := by
  rw [hCorrOf_eq_getLsbD, BitVec.getLsbD_extractLsb']
  rfl

/-- The corrected vertical test is a bit of the descriptor's bits 5:0. -/
theorem vCorrOf_eq_low6 (d : Byte) : vCorrOf d = (d.extractLsb' 0 6).getLsbD 5 := by
  rw [vCorrOf_eq_getLsbD, BitVec.getLsbD_extractLsb']
  rfl

/-- Descriptors that agree in bits 5:0 give the same slices and flags in both modes (R166). -/
theorem descriptor_congr_low6 {d e : Byte} (h : d.extractLsb' 0 6 = e.extractLsb' 0 6) :
    descAlphaOf d = descAlphaOf e ∧ hCompatOf d = hCompatOf e ∧ hCorrOf d = hCorrOf e ∧
      vCompatOf d = vCompatOf e ∧ vCorrOf d = vCorrOf e := by
  simp only [descAlphaOf_eq_low6, hCorrOf_eq_low6, vCorrOf_eq_low6, hCompatOf_eq_false, vCompatOf_eq_false, h,
    and_self]

/-- DECODE reads bytes 0 to 16, the strap, and byte 17: as the raw byte, and in bits 5:0. -/
theorem State.presents.ofFrame_congr_low6 {s u : State} {f g : Frame} {m n : Nat} (hs : s.presents f m)
    (hu : u.presents g n) (hstrap : s.inputs.cfgCorrected = u.inputs.cfgCorrected)
    (hlow : ∀ (k : Nat) (h : k < 17), f[k] = g[k]) (h6 : f[17].extractLsb' 0 6 = g[17].extractLsb' 0 6) :
    Signals.ofFrame u.inputs = { Signals.ofFrame s.inputs with descriptorByte := some g[17] } := by
  have hbyte : ∀ k < 17, u.inputs.byte k = s.inputs.byte k := fun k hk => by
    rw [hu.byte k (by omega), hs.byte k (by omega), hlow k hk]
  have hword : ∀ o < 16, u.inputs.word o = s.inputs.word o := fun o ho => by
    rw [hu.word o (by omega), hs.word o (by omega), hlow o (by omega), hlow (o + 1) (by omega)]
  obtain ⟨halpha, hhCompat, hhCorr, hvCompat, hvCorr⟩ := descriptor_congr_low6 h6
  simp only [Signals.ofFrame, Inputs.cmType, Inputs.typeCode, hbyte, hword, Nat.reduceLT, hs.desc, hu.desc,
    hu.byte 17 (by decide), Option.map_some, descHOf, descVOf, hstrap, halpha, hhCompat, hhCorr, hvCompat, hvCorr]

/-- Settles O42: both transactions are accepted, and DECODE's signals differ in the raw byte alone. -/
theorem reservedDescriptorBitsFeedNothing : Obligations.ReservedDescriptorBitsFeedNothing :=
  fun _ _ _ _ _ _ hs hu hstrap hlow h6 =>
    ⟨_, _, hs.exec_decode, hu.exec_decode, hs.byte 17 (by decide), hs.ofFrame_congr_low6 hu hstrap hlow h6⟩

end Sys2Proof.Machine
end

section
/-! A DECODE line that raises (R194, R207), and the short lines and the descriptor string of the host's text
(R181 to R183, R190, R191). -/

namespace Sys2Proof.Machine

open Sys2Proof

/-! ## A DECODE line that raises -/

/-- A line of fewer than 18 bytes evaluates to the exception, whatever bytes it lists (R101, R206). -/
theorem Presented.evaluated_short {p : Presented} (h : p.len < 18) :
    Signals.evaluated p.inputs = .insufficientData :=
  Signals.evaluated_short (Inputs.errOf_eq_true.2 ⟨Option.some_ne_none _, p.len, rfl, h⟩)

/-- Settles O46: the exception is what the host samples, and a read failure is what it records of it. -/
theorem failedDecodeIsReported : Obligations.FailedDecodeIsReported := by
  intro s p rest hp hlen
  rw [step_decode hp, runDecodeLine_eq, Presented.evaluated_short hlen]
  exact ⟨_, rfl, rfl, rfl, rfl, rfl⟩

/-! ## Decimal numbers -/

/-- With enough fuel the model's digits are the library's. -/
theorem decDigits_eq_toDigits {fuel v : Nat} (h : v < fuel) : decDigits fuel v = Nat.toDigits 10 v := by
  induction fuel generalizing v with
  | zero => omega
  | succ fuel ih =>
    rw [decDigits, Nat.toDigits_eq_if (by decide)]
    split
    · rfl
    · rw [ih (by omega)]

theorem toList_dec (v : Nat) : (dec v).toList = Nat.toDigits 10 v := by
  rw [dec, String.toList_ofList, decDigits_eq_toDigits v.lt_succ_self]

/-- The first decimal digit is 0 for the number 0 alone. -/
theorem eq_zero_of_head?_toDigits {v : Nat} (h : (Nat.toDigits 10 v).head? = some '0') : v = 0 := by
  induction v using Nat.strong_induction_on with
  | h v ih =>
    rcases Nat.lt_or_ge v 10 with hv | hv
    · rw [Nat.toDigits_of_lt_base hv] at h
      exact Nat.digitChar_eq_zero.1 (Option.some_inj.1 h)
    · rw [Nat.toDigits_of_base_le (by decide) hv, List.head?_append_of_ne_nil _ Nat.toDigits_ne_nil] at h
      have hdiv : v / 10 = 0 := ih (v / 10) (by omega) h
      omega

theorem isDigit_of_mem_dec {v : Nat} {c : Char} (h : c ∈ (dec v).toList) : c.isDigit = true :=
  Nat.isDigit_of_mem_toDigits (by decide) (by decide) (toList_dec v ▸ h)

/-- Settles O50: the digits are those of the library, which reads them back. -/
theorem decimalRendering : Obligations.DecimalRendering := by
  intro v
  refine ⟨fun c => isDigit_of_mem_dec, ?_⟩
  rw [toList_dec]
  refine ⟨Nat.toDigits_ne_nil, fun h => ?_, ?_⟩
  · rw [eq_zero_of_head?_toDigits h, Nat.toDigits_zero]
  · rw [← Nat.ofDigitChars_eq_foldl, Nat.ofDigitChars_ten_toDigits]

/-! ## The descriptor string -/

/-- The alpha depth is the masked byte: the mask leaves no bit that 4 bits cannot hold (R160). -/
theorem toNat_descAlphaOf (d : Byte) : (descAlphaOf d).toNat = (d &&& 0x0F).toNat := by
  revert d
  decide

/-- Settles O52: the string by its definition, and in compatibility mode both tests are false. -/
theorem descriptorString : Obligations.DescriptorString := by
  refine ⟨fun _ => rfl, fun s f n h hstrap => ⟨_, _, h.exec_decode, h.decoded, ?_⟩⟩
  have hH : (decodedOf (unpack f) false).descH = false := hCompatOf_eq_false _
  have hV : (decodedOf (unpack f) false).descV = false := vCompatOf_eq_false _
  have halpha : (decodedOf (unpack f) false).descAlpha.toNat = (f[17] &&& 0x0F).toNat := toNat_descAlphaOf _
  rw [hstrap, descriptorText, hH, hV, halpha]
  rfl

/-! ## The short lines -/

theorem shortText_map {d : Decoded} (h : d.cmapPresentSummary = true) : shortText d = shortMapText d :=
  if_pos h

theorem shortText_noMap {d : Decoded} (h : d.cmapPresentSummary = false) : shortText d = shortNoMapText d :=
  if_neg (Bool.eq_false_iff.1 h)

/-- The dimensions of a frame's record are its two pairs of bytes, the higher offset high (R111, R112). -/
theorem dimensionsText_decodedOf (f : Frame) (m : Bool) :
    dimensionsText (decodedOf (unpack f) m) =
      dec (f[13] ++ f[12]).toNat ++ "x" ++ dec (f[15] ++ f[14]).toNat := by
  rw [← le16_eq_append, ← le16_eq_append]
  rfl

theorem decodedOf_cmapPresentSummary (f : Frame) (m : Bool) :
    (decodedOf (unpack f) m).cmapPresentSummary = decide (f[1].toNat = 1) :=
  cmapSummaryOf_eq_decide_toNat f[1]

/-- Settles O49: `cmap_present_summary` chooses the line, and it is the test of `colorMapType` for 1. -/
theorem shortLines : Obligations.ShortLines := by
  refine ⟨fun l e d => ⟨shortText_map, shortText_noMap⟩, fun l e s f n h =>
    ⟨_, _, h.exec_decode, h.decoded, fun hmap => ?_, fun hnoMap => ?_⟩⟩
  all_goals rw [← dimensionsText_decodedOf f s.inputs.cfgCorrected]
  · exact shortText_map (by rw [decodedOf_cmapPresentSummary, decide_eq_true hmap])
  · exact shortText_noMap (by rw [decodedOf_cmapPresentSummary, decide_eq_false (by omega)])

end Sys2Proof.Machine
end

section
/-! The verbose block's lines (R184 to R189), and the characters of every text (R192). -/

namespace Sys2Proof.Machine

open Sys2Proof

/-- Settles O51: the lines are those of the definition, in its order. -/
theorem verboseBlock : Obligations.VerboseBlock := fun _ _ _ => rfl

/-! ## ASCII texts and what is put together from them -/

/-- A text written out is ASCII when a test of its characters says so. -/
@[simp] theorem ascii_of_all {t : String} (h : (t.toList.all fun c => decide (c.toNat < 128)) = true) :
    Ascii t := by
  simpa [Ascii] using h

@[simp] theorem ascii_append {a b : String} : Ascii (a ++ b) ↔ Ascii a ∧ Ascii b := by
  simp only [Ascii, String.toList_append, List.forall_mem_append]

theorem ascii_intercalate {sep : String} {l : List String} (hsep : Ascii sep) (hl : ∀ x ∈ l, Ascii x) :
    Ascii (sep.intercalate l) := by
  induction l with
  | nil => simp
  | cons x l ih =>
    obtain ⟨hx, hl⟩ := List.forall_mem_cons.1 hl
    cases l with
    | nil => rwa [String.intercalate_singleton]
    | cons y l =>
      rw [String.intercalate_cons_cons]
      exact ascii_append.2 ⟨ascii_append.2 ⟨hx, hsep⟩, ih hl⟩

/-! ## The texts the rules fix -/

/-- Decimal digits are ASCII. -/
@[simp] theorem ascii_dec (v : Nat) : Ascii (dec v) := by
  intro c hc
  have hdigit := isDigit_of_mem_dec hc
  simp only [Char.isDigit, UInt32.le_iff_toNat_le, Bool.and_eq_true, decide_eq_true_eq] at hdigit
  exact hdigit.2.trans_lt (by decide)

@[simp] theorem ascii_nameText (d : Decoded) : Ascii (nameText d) := by
  rw [nameText, typeNameOf]
  split <;> simp

@[simp] theorem ascii_dimensionsText (d : Decoded) : Ascii (dimensionsText d) := by
  simp [dimensionsText]

@[simp] theorem ascii_shortText (d : Decoded) : Ascii (shortText d) := by
  unfold shortText
  split
  · simp [shortMapText]
  · simp [shortNoMapText]

@[simp] theorem ascii_horizontalText (h : Bool) : Ascii (horizontalText h) := by
  cases h <;> simp [horizontalText]

@[simp] theorem ascii_verticalText (v : Bool) : Ascii (verticalText v) := by
  cases v <;> simp [verticalText]

@[simp] theorem ascii_descriptorText (d : Decoded) : Ascii (descriptorText d) := by
  simp [descriptorText]

@[simp] theorem ascii_colourMapLine (d : Decoded) : Ascii (colourMapLine d) := by
  unfold colourMapLine
  split <;> simp

/-! ## The whole text -/

/-- Settles O53: every line is made of the fixed texts and the open ones. -/
theorem fixedTextsAreAscii : Obligations.FixedTextsAreAscii := by
  refine ⟨fun d => ⟨ascii_shortText d, ascii_descriptorText d, ascii_colourMapLine d⟩, ?_⟩
  intro l e d verbose hopen
  cases verbose with
  | false => exact ascii_shortText d
  | true =>
    simp only [List.forall_mem_cons] at hopen
    have hlines : ∀ x ∈ verboseLines l d, Ascii x := by
      simp [verboseLines, idLenLine, typeLine, colourMapBlock, imageBlock, hopen]
    have hend : Ascii (if e.atEnd then e.separator else "") := by
      split <;> simp [hopen]
    exact ascii_append.2 ⟨ascii_intercalate (by simp [hopen]) hlines, hend⟩

end Sys2Proof.Machine
end

section
/-! Exceptions and completion (R200 to R208): the one exception below 18 bytes, the rows and the lines that have
a next state, and the host's flow for a file. -/

namespace Sys2Proof.Machine

open Sys2Proof

/-! ## The exception -/

/-- Settles O19. -/
theorem shortBufferStopsEveryRow : Obligations.ShortBufferStopsEveryRow := fun _ _ _ hi h => h.exec_eq hi

/-- Other lanes on the port leave a buffer that is too short as short as it was (R25). -/
theorem State.presentsShort.withLanes {s : State} {n : Nat} (h : s.presentsShort n) (m : Memory) :
    ({ s with inputs := { s.inputs with hdrIn := some m } } : State).presentsShort n :=
  ⟨Option.some_ne_none m, h.2⟩

/-- Settles O20: with either lanes the buffer is too short, so the row drives the exception. -/
theorem shortBufferReadsNoLane : Obligations.ShortBufferReadsNoLane :=
  fun _ _ m _ hi h => ⟨_, _, h.exec_eq hi, (h.withLanes m).exec_eq hi, rfl⟩

/-- A short buffer is presented exactly when `err` is 1. -/
theorem State.exists_presentsShort_iff {s : State} : (∃ n, s.presentsShort n) ↔ s.inputs.errOf = some true :=
  exists_and_left.trans Inputs.errOf_eq_true.symm

/-! ## What has a next state -/

/-- Whatever row is run, `err` is the length check's answer: no row drives it again after the check. -/
theorem exec_err {i : Instr} {s t : State} (h : exec i s = .next t) : t.sig.err = s.inputs.errOf := by
  rcases exec_cases i s (wellFormed_of_exec_next h) with ⟨herr, he⟩ | ⟨herr, he⟩ | ⟨herr, he⟩ <;>
    cases he.symm.trans h
  · exact herr.symm
  · exact herr.symm
  · rw [herr, State.withSig_sig, ← Signals.driveRow_accepted]
    rfl

/-- Settles O22: `err` is the length check's answer, and that tells which buffer is presented. -/
theorem everyRowCompletes : Obligations.EveryRowCompletes := by
  intro i s hi
  have he := exec_eq_transaction i s hi
  refine ⟨_, he, ?_, ?_⟩
  · rw [exec_err he, State.exists_presentsShort_iff]
  · rw [exec_err he, State.exists_presents_iff]

/-- The rows that stop are the ill-formed ones. -/
theorem exists_exec_next_iff {i : Instr} {s : State} : (∃ t, exec i s = .next t) ↔ i.wellFormed = true :=
  ⟨fun ⟨_, h⟩ => wellFormed_of_exec_next h, fun hi => ⟨_, exec_eq_transaction i s hi⟩⟩

/-- A FORMAT line stops when nothing was decoded before it. -/
theorem exists_hostFormat_next_iff {v : Bool} {s : State} :
    (∃ t, hostFormat v s = .next t) ↔ latestDecoded s.transcript ≠ none := by
  rcases h : latestDecoded s.transcript with _ | d
  · simp [hostFormat_of_none v h]
  · simp [hostFormat_of_some v h]

theorem hostFile_short {c : List Byte} (m v : Bool) (s : State) (h : c.length < 18) :
    hostFile c m v s = .next (s.record .shortFile) := if_pos h

theorem hostFile_long {c : List Byte} (m v : Bool) (s : State) (h : 18 ≤ c.length) :
    hostFile c m v s = .next (s.withPending (.decode (filePresented c m) :: .format v :: s.pending)) :=
  if_neg (Nat.not_lt.2 h)

/-- Settles O9, by the host's next line. -/
theorem stepStopsOnlyOnBadLines : Obligations.StepStopsOnlyOnBadLines := by
  intro s
  rcases hp : s.pending with _ | ⟨line, rest⟩
  · rw [step_nil hp, exec_decode]
    simp [State.stopsNow, hp]
  cases line with
  | decode p =>
    rw [step_decode hp, runDecodeLine_eq]
    simp [State.stopsNow, hp]
  | format v =>
    rw [step_format hp, exists_hostFormat_next_iff]
    simp [State.stopsNow, hp]
  | decodeMoving p q =>
    rw [step_decodeMoving hp, runDecodeLine_eq]
    by_cases hpq : p.inputs = q.inputs <;> simp [State.stopsNow, hp, hpq]
  | file c m v =>
    rw [step_file hp]
    rcases Nat.lt_or_ge c.length 18 with h | h
    · simp [State.stopsNow, hp, hostFile_short m v _ h]
    · simp [State.stopsNow, hp, hostFile_long m v _ h]
  | row i =>
    rw [step_row hp, exists_exec_next_iff]
    simp [State.stopsNow, hp]

/-! ## The host's flow for a file -/

/-- A file that starts with a frame is presented as that frame's input record (R224). -/
theorem filePresented_frame_append (f : Frame) (later : List Byte) (m : Bool) :
    filePresented (f.toList ++ later) m = presentedInput ⟨f, 18, m⟩ := by
  have htake : (f.toList ++ later).take 18 = f.toList := List.take_left' f.length_toList
  simp [filePresented, presentedInput, Config.frameBytes, htake]

/-- Such a file takes one step, which queues the record's DECODE line and a FORMAT line. -/
theorem step_file_frame {s : State} {f : Frame} {later : List Byte} {m v : Bool} {rest : List HostLine}
    (h : s.pending = .file (f.toList ++ later) m v :: rest) :
    ∃ t, step s = .next t ∧ t.pending = .decode (presentedInput ⟨f, 18, m⟩) :: .format v :: rest ∧
      t.transcript = s.transcript := by
  rw [step_file h, hostFile_long m v _ (by simp), filePresented_frame_append]
  exact ⟨_, rfl, rfl, rfl⟩

/-- A FORMAT line right after a sampled header takes one step, which prints that header's text. -/
theorem step_format_header {s : State} {v : Bool} {rest : List HostLine} {d : Decoded} {past : List HostEvent}
    (h : s.pending = .format v :: rest) (ht : s.transcript = .header d :: past) :
    ∃ t, step s = .next t ∧ t.pending = rest ∧
      t.transcript = .text (formatText Config.verboseLayout Config.lineTerminator d v) :: .header d :: past := by
  have hlatest : latestDecoded (s.withPending rest).transcript = some d := by
    rw [State.withPending_transcript, ht, latestDecoded]
  rw [step_format h, hostFormat_of_some v hlatest]
  exact ⟨_, rfl, rfl, congrArg _ ht⟩

/-- Settles O48: a short file takes one step, and a file that starts with a frame the steps of its file line,
its DECODE line and its FORMAT line. -/
theorem fileFlow : Obligations.FileFlow := by
  intro s contents m v rest hp
  refine ⟨fun hshort => ⟨?_, rfl⟩, ?_⟩
  · rw [step_file hp, hostFile_short m v _ hshort]
    rfl
  · rintro f later rfl
    obtain ⟨t₁, hfile, hp₁, ht₁⟩ := step_file_frame hp
    obtain ⟨t₂, hdecode, hp₂, ht₂⟩ := step_decode_input hp₁
    rw [decodeInput_accepted (le_refl 18), ht₁] at ht₂
    obtain ⟨t₃, hformat, hp₃, ht₃⟩ := step_format_header hp₂ ht₂
    refine ⟨t₃, ?_, hp₃, ht₃⟩
    calc Host.Core.run Sys2Proof.core 3 s
        = Host.Core.run Sys2Proof.core 2 t₁ := run_succ_of_step (M := Sys2Proof.core) hfile 2
      _ = Host.Core.run Sys2Proof.core 1 t₂ := run_succ_of_step (M := Sys2Proof.core) hdecode 1
      _ = .next t₃ := run_succ_of_step (M := Sys2Proof.core) hformat 0

end Sys2Proof.Machine
end

section
/-! Reset and hazards (R220 to R227): no signal carries a value before both ports of the length check are driven,
and a DECODE line's transaction depends on nothing that went before it. -/

namespace Sys2Proof.Machine

open Sys2Proof

/-! ## Before the ports are driven -/

/-- The length check has no answer until `hdr_in` is driven. -/
theorem Inputs.errOf_eq_none_of_hdrIn {x : Inputs} (h : x.hdrIn = none) : x.errOf = none := by
  simp only [Inputs.errOf, h]

/-- The length check has no answer until `len_in` is driven, whatever `hdr_in` carries. -/
theorem Inputs.errOf_eq_none_of_lenIn {x : Inputs} (h : x.lenIn = none) : x.errOf = none := by
  rcases hx : x.hdrIn with _ | lanes
  · exact Inputs.errOf_eq_none_of_hdrIn hx
  · simp only [Inputs.errOf, hx, h]

/-- A row evaluated while the length check has no answer leaves every signal without a value (R221). -/
theorem exec_eq_undriven {i : Instr} {s : State} (hi : i.wellFormed = true) (h : s.inputs.errOf = none) :
    exec i s = .next (s.withSig .undriven) := by
  rw [exec_eq_transaction i s hi, transaction_undriven _ h]

/-- Settles O2: the reset state is as stated, and without a length the length check has no answer. -/
theorem nothingDefinedBeforeLengthIsDriven : Obligations.NothingDefinedBeforeLengthIsDriven :=
  ⟨rfl, rfl, fun _ _ hi hlen => exec_eq_undriven hi (Inputs.errOf_eq_none_of_lenIn hlen)⟩

/-- Settles O54: without a frame the length check has no answer, whatever the length. -/
theorem nothingDefinedBeforeFrameIsDriven : Obligations.NothingDefinedBeforeFrameIsDriven :=
  fun _ _ hi hhdr => exec_eq_undriven hi (Inputs.errOf_eq_none_of_hdrIn hhdr)

/-! ## Independent transactions -/

/-- What a DECODE line leaves on the ports and the event it records are functions of the line alone: one event
serves every state that the line is pending in (R205, R226). -/
theorem exists_event_of_step_decode (p : Presented) :
    ∃ e, ∀ (s : State) (rest : List HostLine), s.pending = .decode p :: rest →
      ∃ t, step s = .next t ∧ t.inputs = p.inputs ∧ t.sig = .evaluated p.inputs ∧
        t.transcript = e :: s.transcript := by
  obtain ⟨e, he⟩ := hostSample_eq_of_sig (.evaluated p.inputs)
  refine ⟨e, fun s rest hp => ?_⟩
  rw [step_decode hp, runDecodeLine_eq, he _ rfl]
  exact ⟨_, rfl, rfl, rfl, rfl⟩

/-- Settles O27: in both states the line leaves its own inputs, their evaluation, and its one event. -/
theorem transactionsAreIndependent : Obligations.TransactionsAreIndependent := by
  intro s u p rest rest' hs hu
  obtain ⟨e, hline⟩ := exists_event_of_step_decode p
  obtain ⟨t, hstep, hin, hsig, htr⟩ := hline s rest hs
  obtain ⟨v, hstep', hin', hsig', htr'⟩ := hline u rest' hu
  exact ⟨t, v, e, hstep, hstep', hsig.trans hsig'.symm, hin.trans hin'.symm, htr, htr'⟩

end Sys2Proof.Machine
end
